-- ==== Sys2Proof/Word.lean ====
section
/-! DEFINITION. The machine's words: bytes, 16-bit words, register numbers and key codes. -/

namespace Sys2Proof

/-- An 8-bit unsigned value: a V register, a timer, a memory byte (R8, R20, R28 to R30). -/
abbrev Byte := BitVec 8

/-- A 16-bit unsigned value: I, PC, a return address, an opcode (R7, R23, R24, R27). -/
abbrev Word := BitVec 16

/-- The number of one of the 16 general registers V0..VF (R20, R82). -/
abbrev RegNum := Fin 16

/-- The code of one of the 16 keys (R35, R261). -/
abbrev KeyCode := Fin 16

/-- The register VF, V[15] (R21). -/
abbrev vf : RegNum := 15

end Sys2Proof
end

