-- ==== Sys2Proof/Syntax.lean ====
section
/-! DEFINITION. The 34 instructions, one constructor per row of the opcode table, in the table's order (R2, R85). -/

namespace Sys2Proof

/-- One instruction. `x`, `y` number V registers, `kk` is an immediate byte, `nnn` an address operand already
zero-extended to 16 bits (R83), `n` a sprite's height in bytes. That nnn fits 12 bits and n fits 4 bits
is what `Instr.wellFormed` says (log 15). -/
inductive Instr where
  /-- 00E0: clear the display (R200). -/
  | cls
  /-- 00EE: return (R130). -/
  | ret
  /-- 1nnn: jump (R131). -/
  | jp (nnn : Word)
  /-- 2nnn: call (R132). -/
  | call (nnn : Word)
  /-- 3xkk: skip if Vx equals kk (R133). -/
  | seImm (x : RegNum) (kk : Byte)
  /-- 4xkk: skip if Vx differs from kk (R134). -/
  | sneImm (x : RegNum) (kk : Byte)
  /-- 5xy0: skip if Vx equals Vy (R135). -/
  | seReg (x y : RegNum)
  /-- 6xkk: load immediate (R150). -/
  | ldImm (x : RegNum) (kk : Byte)
  /-- 7xkk: add immediate (R151). -/
  | addImm (x : RegNum) (kk : Byte)
  /-- 8xy0: move (R152). -/
  | ldReg (x y : RegNum)
  /-- 8xy1: bitwise or (R153). -/
  | orReg (x y : RegNum)
  /-- 8xy2: bitwise and (R154). -/
  | andReg (x y : RegNum)
  /-- 8xy3: bitwise exclusive or (R155). -/
  | xorReg (x y : RegNum)
  /-- 8xy4: add with carry (R156). -/
  | addReg (x y : RegNum)
  /-- 8xy5: subtract (R157). -/
  | subReg (x y : RegNum)
  /-- 8xy6: shift right; y is encoded but not read (R158). -/
  | shr (x y : RegNum)
  /-- 8xy7: reverse subtract (R159). -/
  | subnReg (x y : RegNum)
  /-- 8xyE: shift left; y is encoded but not read (R160). -/
  | shl (x y : RegNum)
  /-- 9xy0: skip if Vx differs from Vy (R136). -/
  | sneReg (x y : RegNum)
  /-- Annn: load I (R180). -/
  | ldI (nnn : Word)
  /-- Bnnn: jump plus V0 (R137). -/
  | jpV0 (nnn : Word)
  /-- Cxkk: random byte and mask (R161). -/
  | rnd (x : RegNum) (kk : Byte)
  /-- Dxyn: draw sprite (R201). -/
  | drw (x y : RegNum) (n : Nat)
  /-- Ex9E: skip if key Vx is pressed (R220). -/
  | skp (x : RegNum)
  /-- ExA1: skip if key Vx is not pressed (R221). -/
  | sknp (x : RegNum)
  /-- Fx07: read the delay timer (R222). -/
  | ldVxDt (x : RegNum)
  /-- Fx0A: wait for a key press (R223). -/
  | ldVxK (x : RegNum)
  /-- Fx15: set the delay timer (R224). -/
  | ldDtVx (x : RegNum)
  /-- Fx18: set the sound timer (R225). -/
  | ldStVx (x : RegNum)
  /-- Fx1E: add to I (R181). -/
  | addI (x : RegNum)
  /-- Fx29: font sprite address (R182). -/
  | ldF (x : RegNum)
  /-- Fx33: binary-coded decimal (R183). -/
  | ldB (x : RegNum)
  /-- Fx55: store V0..Vx (R184). -/
  | storeRegs (x : RegNum)
  /-- Fx65: load V0..Vx (R185). -/
  | loadRegs (x : RegNum)
deriving DecidableEq, Repr

end Sys2Proof
end

