-- ==== Sys2Proof/WellFormed.lean ====
section
/-! DEFINITION. Which terms of Instr an opcode can stand for: the operand ranges of R83. -/

namespace Sys2Proof

/-- An address operand fits its 12-bit field: nnn is 0..4095 (R83). -/
def addressFits (nnn : Word) : Bool := nnn.toNat < 4096

/-- A sprite height fits its 4-bit field: n is 0..15 (R83). -/
def heightFits (n : Nat) : Bool := n < 16

/-- Every operand is in the range its field admits (R83). Register numbers and immediate bytes are in
range by their types; any combination of registers is legal, x = y and VF included. -/
def Instr.wellFormed : Instr → Bool
  | .jp nnn => addressFits nnn
  | .call nnn => addressFits nnn
  | .ldI nnn => addressFits nnn
  | .jpV0 nnn => addressFits nnn
  | .drw _ _ n => heightFits n
  | .cls => true
  | .ret => true
  | .seImm _ _ => true
  | .sneImm _ _ => true
  | .seReg _ _ => true
  | .ldImm _ _ => true
  | .addImm _ _ => true
  | .ldReg _ _ => true
  | .orReg _ _ => true
  | .andReg _ _ => true
  | .xorReg _ _ => true
  | .addReg _ _ => true
  | .subReg _ _ => true
  | .shr _ _ => true
  | .subnReg _ _ => true
  | .shl _ _ => true
  | .sneReg _ _ => true
  | .rnd _ _ => true
  | .skp _ => true
  | .sknp _ => true
  | .ldVxDt _ => true
  | .ldVxK _ => true
  | .ldDtVx _ => true
  | .ldStVx _ => true
  | .addI _ => true
  | .ldF _ => true
  | .ldB _ => true
  | .storeRegs _ => true
  | .loadRegs _ => true

end Sys2Proof
end

