-- ==== Sys2Proof/Decode.lean ====
section
/-! DEFINITION. The decoder (total, rejecting by name), the encoder, and the opcode table's masks and matches. -/

namespace Sys2Proof

/-! ### Bytes and fields of an opcode word -/

/-- The word whose high byte is `hi` and low byte `lo`: (hi << 8) | lo (R56). -/
def joinBytes (hi lo : Byte) : Word := BitVec.ofNat 16 (hi.toNat * 256 + lo.toNat)

/-- The byte of a word that is stored at the lower address (R56). -/
def highByte (w : Word) : Byte := BitVec.ofNat 8 (w.toNat / 256)

/-- The byte of a word that is stored at the higher address (R56). -/
def lowByte (w : Word) : Byte := BitVec.ofNat 8 w.toNat

/-- `op[hi:lo]`, the unsigned field of bits hi down to lo (R7). -/
def bits (op : Word) (hi lo : Nat) : Nat := op.toNat / 2 ^ lo % 2 ^ (hi + 1 - lo)

/-- x = op[11:8] (R82). -/
def fieldX (op : Word) : RegNum := Fin.ofNat 16 (bits op 11 8)

/-- y = op[7:4] (R82). -/
def fieldY (op : Word) : RegNum := Fin.ofNat 16 (bits op 7 4)

/-- n = op[3:0] (R82). -/
def fieldN (op : Word) : Nat := bits op 3 0

/-- kk = op[7:0] (R82). -/
def fieldKK (op : Word) : Byte := BitVec.ofNat 8 (bits op 7 0)

/-- nnn = op[11:0], zero-extended to 16 bits (R82, R83). -/
def fieldNNN (op : Word) : Word := BitVec.ofNat 16 (bits op 11 0)

/-! ### The decoder -/

/-- Why bytes do not decode to an instruction. -/
inductive DecodeError where
  /-- The opcode is none of the 34: R84's `Unknown` (R86). -/
  | unknownOpcode (op : Word)
  /-- Fewer than the two bytes of an opcode are there (R80). -/
  | truncated
deriving DecidableEq, Repr

/-- The opcodes of primary nibble 0x8, by the low nibble (R84). -/
def decode8 (op : Word) : Except DecodeError Instr :=
  match bits op 3 0 with
  | 0x0 => .ok (.ldReg (fieldX op) (fieldY op))
  | 0x1 => .ok (.orReg (fieldX op) (fieldY op))
  | 0x2 => .ok (.andReg (fieldX op) (fieldY op))
  | 0x3 => .ok (.xorReg (fieldX op) (fieldY op))
  | 0x4 => .ok (.addReg (fieldX op) (fieldY op))
  | 0x5 => .ok (.subReg (fieldX op) (fieldY op))
  | 0x6 => .ok (.shr (fieldX op) (fieldY op))
  | 0x7 => .ok (.subnReg (fieldX op) (fieldY op))
  | 0xE => .ok (.shl (fieldX op) (fieldY op))
  | _ => .error (.unknownOpcode op)

/-- The opcodes of primary nibble 0xE, by the low byte (R84). -/
def decodeE (op : Word) : Except DecodeError Instr :=
  match bits op 7 0 with
  | 0x9E => .ok (.skp (fieldX op))
  | 0xA1 => .ok (.sknp (fieldX op))
  | _ => .error (.unknownOpcode op)

/-- The opcodes of primary nibble 0xF, by the low byte (R84). -/
def decodeF (op : Word) : Except DecodeError Instr :=
  match bits op 7 0 with
  | 0x07 => .ok (.ldVxDt (fieldX op))
  | 0x0A => .ok (.ldVxK (fieldX op))
  | 0x15 => .ok (.ldDtVx (fieldX op))
  | 0x18 => .ok (.ldStVx (fieldX op))
  | 0x1E => .ok (.addI (fieldX op))
  | 0x29 => .ok (.ldF (fieldX op))
  | 0x33 => .ok (.ldB (fieldX op))
  | 0x55 => .ok (.storeRegs (fieldX op))
  | 0x65 => .ok (.loadRegs (fieldX op))
  | _ => .error (.unknownOpcode op)

/-- `decode(op)` of R84: by the primary nibble, then as that nibble's row says. -/
def decodeWord (op : Word) : Except DecodeError Instr :=
  match bits op 15 12 with
  | 0x0 =>
    if op = 0x00E0 then .ok .cls
    else if op = 0x00EE then .ok .ret
    else .error (.unknownOpcode op)
  | 0x1 => .ok (.jp (fieldNNN op))
  | 0x2 => .ok (.call (fieldNNN op))
  | 0x3 => .ok (.seImm (fieldX op) (fieldKK op))
  | 0x4 => .ok (.sneImm (fieldX op) (fieldKK op))
  | 0x5 =>
    if bits op 3 0 = 0 then .ok (.seReg (fieldX op) (fieldY op)) else .error (.unknownOpcode op)
  | 0x6 => .ok (.ldImm (fieldX op) (fieldKK op))
  | 0x7 => .ok (.addImm (fieldX op) (fieldKK op))
  | 0x8 => decode8 op
  | 0x9 =>
    if bits op 3 0 = 0 then .ok (.sneReg (fieldX op) (fieldY op)) else .error (.unknownOpcode op)
  | 0xA => .ok (.ldI (fieldNNN op))
  | 0xB => .ok (.jpV0 (fieldNNN op))
  | 0xC => .ok (.rnd (fieldX op) (fieldKK op))
  | 0xD => .ok (.drw (fieldX op) (fieldY op) (fieldN op))
  | 0xE => decodeE op
  | _ => decodeF op

/-- Reads one instruction from the front of a list of bytes and answers the bytes after it. -/
def decode : List Byte → Except DecodeError (Instr × List Byte)
  | hi :: lo :: rest => (decodeWord (joinBytes hi lo)).map (fun i => (i, rest))
  | _ => .error .truncated

/-! ### The encoder -/

/-- Format NNN: primary nibble, 12-bit address (R81). -/
def formatNNN (primary : Nat) (nnn : Word) : Word := BitVec.ofNat 16 (primary * 0x1000 + nnn.toNat)

/-- Format XKK: primary nibble, register, byte (R81). -/
def formatXKK (primary : Nat) (x : RegNum) (kk : Byte) : Word :=
  BitVec.ofNat 16 (primary * 0x1000 + x.val * 0x100 + kk.toNat)

/-- Formats XYF and XYN: primary nibble, two registers, a low nibble that is a function code or a count (R81). -/
def formatXYN (primary : Nat) (x y : RegNum) (low : Nat) : Word :=
  BitVec.ofNat 16 (primary * 0x1000 + x.val * 0x100 + y.val * 0x10 + low)

/-- Format XF: primary nibble, register, function byte (R81). -/
def formatXF (primary : Nat) (x : RegNum) (function : Nat) : Word :=
  BitVec.ofNat 16 (primary * 0x1000 + x.val * 0x100 + function)

/-- The opcode word of a well-formed instruction, from the encoding line of its rule. -/
def encode : Instr → Word
  | .cls => 0x00E0
  | .ret => 0x00EE
  | .jp nnn => formatNNN 0x1 nnn
  | .call nnn => formatNNN 0x2 nnn
  | .seImm x kk => formatXKK 0x3 x kk
  | .sneImm x kk => formatXKK 0x4 x kk
  | .seReg x y => formatXYN 0x5 x y 0x0
  | .ldImm x kk => formatXKK 0x6 x kk
  | .addImm x kk => formatXKK 0x7 x kk
  | .ldReg x y => formatXYN 0x8 x y 0x0
  | .orReg x y => formatXYN 0x8 x y 0x1
  | .andReg x y => formatXYN 0x8 x y 0x2
  | .xorReg x y => formatXYN 0x8 x y 0x3
  | .addReg x y => formatXYN 0x8 x y 0x4
  | .subReg x y => formatXYN 0x8 x y 0x5
  | .shr x y => formatXYN 0x8 x y 0x6
  | .subnReg x y => formatXYN 0x8 x y 0x7
  | .shl x y => formatXYN 0x8 x y 0xE
  | .sneReg x y => formatXYN 0x9 x y 0x0
  | .ldI nnn => formatNNN 0xA nnn
  | .jpV0 nnn => formatNNN 0xB nnn
  | .rnd x kk => formatXKK 0xC x kk
  | .drw x y n => formatXYN 0xD x y n
  | .skp x => formatXF 0xE x 0x9E
  | .sknp x => formatXF 0xE x 0xA1
  | .ldVxDt x => formatXF 0xF x 0x07
  | .ldVxK x => formatXF 0xF x 0x0A
  | .ldDtVx x => formatXF 0xF x 0x15
  | .ldStVx x => formatXF 0xF x 0x18
  | .addI x => formatXF 0xF x 0x1E
  | .ldF x => formatXF 0xF x 0x29
  | .ldB x => formatXF 0xF x 0x33
  | .storeRegs x => formatXF 0xF x 0x55
  | .loadRegs x => formatXF 0xF x 0x65

/-- The two bytes of an instruction as memory holds them: high byte at the lower address (R56, R80). -/
def encodeBytes (i : Instr) : List Byte := [highByte (encode i), lowByte (encode i)]

/-! ### The opcode table's rows -/

/-- A row of the opcode table: its words are those that agree with `pattern` on the bits of `mask`. -/
structure OpcodeRow where
  mask : Word
  pattern : Word
deriving DecidableEq, Repr

/-- The word is one of the row's. -/
def OpcodeRow.covers (r : OpcodeRow) (op : Word) : Bool := op &&& r.mask = r.pattern

/-- The mask and match that spec/opcode_table.json gives an instruction's row. -/
def Instr.row : Instr → OpcodeRow
  | .cls => ⟨0xFFFF, 0x00E0⟩
  | .ret => ⟨0xFFFF, 0x00EE⟩
  | .jp _ => ⟨0xF000, 0x1000⟩
  | .call _ => ⟨0xF000, 0x2000⟩
  | .seImm _ _ => ⟨0xF000, 0x3000⟩
  | .sneImm _ _ => ⟨0xF000, 0x4000⟩
  | .seReg _ _ => ⟨0xF00F, 0x5000⟩
  | .ldImm _ _ => ⟨0xF000, 0x6000⟩
  | .addImm _ _ => ⟨0xF000, 0x7000⟩
  | .ldReg _ _ => ⟨0xF00F, 0x8000⟩
  | .orReg _ _ => ⟨0xF00F, 0x8001⟩
  | .andReg _ _ => ⟨0xF00F, 0x8002⟩
  | .xorReg _ _ => ⟨0xF00F, 0x8003⟩
  | .addReg _ _ => ⟨0xF00F, 0x8004⟩
  | .subReg _ _ => ⟨0xF00F, 0x8005⟩
  | .shr _ _ => ⟨0xF00F, 0x8006⟩
  | .subnReg _ _ => ⟨0xF00F, 0x8007⟩
  | .shl _ _ => ⟨0xF00F, 0x800E⟩
  | .sneReg _ _ => ⟨0xF00F, 0x9000⟩
  | .ldI _ => ⟨0xF000, 0xA000⟩
  | .jpV0 _ => ⟨0xF000, 0xB000⟩
  | .rnd _ _ => ⟨0xF000, 0xC000⟩
  | .drw _ _ _ => ⟨0xF000, 0xD000⟩
  | .skp _ => ⟨0xF0FF, 0xE09E⟩
  | .sknp _ => ⟨0xF0FF, 0xE0A1⟩
  | .ldVxDt _ => ⟨0xF0FF, 0xF007⟩
  | .ldVxK _ => ⟨0xF0FF, 0xF00A⟩
  | .ldDtVx _ => ⟨0xF0FF, 0xF015⟩
  | .ldStVx _ => ⟨0xF0FF, 0xF018⟩
  | .addI _ => ⟨0xF0FF, 0xF01E⟩
  | .ldF _ => ⟨0xF0FF, 0xF029⟩
  | .ldB _ => ⟨0xF0FF, 0xF033⟩
  | .storeRegs _ => ⟨0xF0FF, 0xF055⟩
  | .loadRegs _ => ⟨0xF0FF, 0xF065⟩

/-! ### Decoding a row's word -/

/-- The instruction the decoder reads from an opcode-table word: its one 16-bit word, laid out high byte
first as memory holds it (R56, R80). -/
def decodeTableWord (nbits w : Nat) : Option Instr :=
  let op : Word := BitVec.ofNat 16 (w % 2 ^ nbits)
  (decode [highByte op, lowByte op]).toOption.map Prod.fst

end Sys2Proof
end

