-- ==== Sys2Proof/Config.lean ====
section
/-! DEFINITION. The fixed sizes of R6, the machine's parameters with the spec's defaults, and its one free value. -/

namespace Sys2Proof

/-- MEM_SIZE: the number of bytes of memory (R6, R30). -/
abbrev memSize : Nat := 4096

/-- PROG_BASE: where a program is loaded and where execution starts (R6, R281). -/
abbrev progBase : Nat := 0x200

/-- MAX_PROG: the longest program, in bytes (R6, R282). -/
abbrev maxProg : Nat := 3584

/-- FONT_LEN: the number of font bytes, at 0x000 (R6, R31). -/
abbrev fontLen : Nat := 80

/-- TONE_HZ: the frequency of the tone, in hertz (R6, R253). -/
abbrev toneHz : Nat := 440

/-- The display's pixels, FB[px][py] with 0 ≤ px < 64 and 0 ≤ py < 32; true is on (R35). -/
abbrev Framebuffer := Vector (Vector Bool 32) 64

/-- The parameters R6 makes arguments of the model. They are fixed when the core is constructed
and no step changes them. DESIGN CHOICE: they stand in State beside the machine (log 4). -/
structure Config where
  /-- FONT: the 80 font bytes (R31). -/
  font : Vector Byte fontLen
  /-- STACK_DEPTH: the most return addresses the stack holds (R27). -/
  stackDepth : Nat
  /-- TICK_WHILE_PAUSED: whether a batch that ends paused ticks the timers (R254). -/
  tickWhilePaused : Bool
deriving DecidableEq, Repr

/-- The default font's bytes, in R31's table, digit by digit. -/
def Config.fontBytes : List Byte :=
  [0xF0, 0x90, 0x90, 0x90, 0xF0] ++ [0x20, 0x60, 0x20, 0x20, 0x70] ++
  [0xF0, 0x10, 0xF0, 0x80, 0xF0] ++ [0xF0, 0x10, 0xF0, 0x10, 0xF0] ++
  [0x90, 0x90, 0xF0, 0x10, 0x10] ++ [0xF0, 0x80, 0xF0, 0x10, 0xF0] ++
  [0xF0, 0x80, 0xF0, 0x90, 0xF0] ++ [0xF0, 0x10, 0x20, 0x40, 0x40] ++
  [0xF0, 0x90, 0xF0, 0x90, 0xF0] ++ [0xF0, 0x90, 0xF0, 0x10, 0xF0] ++
  [0xF0, 0x90, 0xF0, 0x90, 0x90] ++ [0xE0, 0x90, 0xE0, 0x90, 0xE0] ++
  [0xF0, 0x80, 0x80, 0x80, 0xF0] ++ [0xE0, 0x90, 0x90, 0x90, 0xE0] ++
  [0xF0, 0x80, 0xF0, 0x80, 0xF0] ++ [0xF0, 0x80, 0xF0, 0x80, 0x80]

/-- The default FONT (R31). -/
def Config.defaultFont : Vector Byte fontLen := ⟨Config.fontBytes.toArray, by decide⟩

/-- The parameters at the spec's defaults: FONT of R31, STACK_DEPTH 16 (R27), TICK_WHILE_PAUSED true (R254). -/
def Config.spec : Config :=
  { font := Config.defaultFont, stackDepth := 16, tickWhilePaused := true }

/-- A display with every pixel off. DESIGN CHOICE: State.reset takes it for the spec's open parameter
FB0 (log 3); `State.construct` takes any. -/
def Framebuffer.allOff : Framebuffer := Vector.replicate 64 (Vector.replicate 32 false)

/-- The byte the k-th call of Rand8() gives: a free value, about which nothing can be proved (R162, log 1). -/
opaque Config.randomByte : Nat → Byte

end Sys2Proof
end

