-- ==== Sys2Proof/Machine/State.lean ====
section
/-! DEFINITION. The state of the machine as plain data, the reasons a step can stop, and the state after construction. -/

namespace Sys2Proof.Machine

/-- The five kinds of fault of R241. They are part of the machine's own state (a fault halts the core and is
recorded in it), not reasons for the model to stop. -/
inductive FaultKind where
  | unknownOpcode
  | stackUnderflow
  | stackOverflow
  | addressOutOfRange
  | keyOutOfRange
deriving DecidableEq, Repr

/-- The fault record of R243, `rec = {kind, code, pc, op, addr}`; its code is a function of its kind (log 10). -/
structure FaultRecord where
  /-- The kind of fault. -/
  kind : FaultKind
  /-- A, the address of the faulting opcode. -/
  pc : Word
  /-- The opcode; none for a fault at fetch. -/
  op : Option Word
  /-- The lowest out-of-range address; present for AddressOutOfRange only. -/
  addr : Option Nat
deriving DecidableEq, Repr

/-- Memory: the bytes that differ from what an unlisted address reads as (`Memory.unlisted`), by
rising address (`Memory.wf`; R30, log 13). -/
abbrev Memory := List Host.Cell

/-- What introspection shows the host (R38). -/
structure Introspection where
  v : Vector Byte 16
  pc : Word
  i : Word
  stackDepth : Nat
  dt : Byte
  st : Byte
  wait : Option RegNum
  ready : Bool
  halt : Option FaultRecord
deriving DecidableEq, Repr

/-- The transactions that reach the core or its devices from outside (R100). -/
inductive Transaction where
  /-- The host loads a program (R282 to R287). -/
  | loadProgram (bytes : List Byte)
  /-- The host runs a batch of up to n cycles (R101 to R107). -/
  | runCycleBatch (n : Nat)
  /-- Key k is pressed (R112). -/
  | keyPress (k : KeyCode)
  /-- Key k is released (R113). -/
  | keyRelease (k : KeyCode)
  /-- The host reads the state (R38). -/
  | introspect
deriving DecidableEq, Repr

/-- The results of host calls (R100). -/
inductive Reply where
  | ran
  | notLoaded
  | halted
  | loaded
  | oversizedProgram
  | introspection (view : Introspection)
deriving DecidableEq, Repr

/-- The calls the core makes of the tone device (R264). -/
inductive ToneCall where
  | play (hz : Nat)
  | stop
deriving DecidableEq, Repr

/-- The machine: the core, the three collaborators' state its rules read or change (R35), the parameters,
and the model's own fields that make the host's calls steps of one machine (logs 2, 5, 6, 8, 16). -/
structure State where
  /-- V0..VF; V15 is VF, the flag (R20, R21). -/
  v : Vector Byte 16
  /-- The index register I (R23). -/
  i : Word
  /-- The program counter PC (R24). -/
  pc : Word
  /-- The call stack, most recently pushed address first (R27, log 14). -/
  stack : List Word
  /-- The delay timer DT (R28). -/
  dt : Byte
  /-- The sound timer ST (R29). -/
  st : Byte
  /-- Memory Mem (R30). -/
  mem : Memory
  /-- The wait state Wait: none, or the register a pending Fx0A will write (R32). -/
  wait : Option RegNum
  /-- The ready flag Ready: a program is loaded (R33). -/
  ready : Bool
  /-- The halt state Halt: none, or the record of the fault that halted the core (R34). -/
  halt : Option FaultRecord
  /-- The display's pixels FB (R35). -/
  fb : Framebuffer
  /-- The key levels K, true when pressed (R35). -/
  keys : Vector Bool 16
  /-- The key device's one-shot callback slot is armed (R35, R263, log 11). -/
  callbackArmed : Bool
  /-- The tone device is playing: ToneOn (R35). -/
  toneOn : Bool
  /-- The machine's parameters, which no step changes (R6, log 4). -/
  cfg : Config
  /-- The model's own: transactions not yet begun, first first (R114, log 6). -/
  inbox : List Transaction
  /-- The model's own: none between batches, or how many iterations the current batch has left (R103, log 5). -/
  batch : Option Nat
  /-- The model's own: the result of the latest host call that returned one (R100, log 8). -/
  reply : Option Reply
  /-- The model's own: the call the latest runCycleBatch made of the tone device, if it made one (log 16). -/
  toneCall : Option ToneCall
  /-- The model's own: how many bytes Rand8() has given so far (R162, log 2). -/
  draws : Nat
deriving DecidableEq, Repr

/-- Reasons the model would stop with a fault: none. Every fault of the spec is a state of the machine
(Halt, R244), which a step reaches as its next state (log 9); no definition raises one. -/
inductive Fault where
deriving DecidableEq, Repr

/-- Reasons the model refuses an instruction. -/
inductive Refusal where
  /-- Raised by an arm of exec for an instruction with no meaning yet (safe); no arm raises it now. -/
  | notModelled (mnemonic : String)
deriving DecidableEq, Repr

/-- The core and its devices right after construction with given parameters and display contents FB0 (R37, R280).
No transaction is pending. -/
def State.construct (cfg : Config) (fb0 : Framebuffer) : State where
  v := Vector.replicate 16 0
  i := 0
  pc := BitVec.ofNat 16 progBase
  stack := []
  dt := 0
  st := 0
  mem := []
  wait := none
  ready := false
  halt := none
  fb := fb0
  keys := Vector.replicate 16 false
  callbackArmed := false
  toneOn := false
  cfg := cfg
  inbox := []
  batch := none
  reply := none
  toneCall := none
  draws := 0

/-- The machine right after reset: construction with the spec's default parameters. DESIGN CHOICE: the
open parameter FB0 is all off (log 3). -/
def State.reset : State := State.construct Config.spec Framebuffer.allOff

end Sys2Proof.Machine
end

