-- ==== Sys2Proof/Machine/Ops.lean ====
section
/-! DEFINITION. The named operations over registers and memory, the bound check, and raising a fault. -/

namespace Sys2Proof.Machine

/-! ### Registers -/

/-- V[x] (R9, R20). -/
def State.reg (s : State) (x : RegNum) : Byte := s.v[x.val]

/-- Replaces the register file. -/
def State.setRegs (s : State) (v : Vector Byte 16) : State := { s with v := v }

/-- V[x] <- b (R9, R20). -/
def State.setReg (s : State) (x : RegNum) (b : Byte) : State := s.setRegs (s.v.set x.val b)

/-- I <- w (R23). -/
def State.setI (s : State) (w : Word) : State := { s with i := w }

/-- PC <- w (R24). -/
def State.setPc (s : State) (w : Word) : State := { s with pc := w }

/-- Replaces the call stack (R27). -/
def State.setStack (s : State) (l : List Word) : State := { s with stack := l }

/-- push(Stack, w) (R27). -/
def State.push (s : State) (w : Word) : State := s.setStack (w :: s.stack)

/-- DT <- b (R28). -/
def State.setDt (s : State) (b : Byte) : State := { s with dt := b }

/-- ST <- b (R29). -/
def State.setSt (s : State) (b : Byte) : State := { s with st := b }

/-- Wait <- w (R32). -/
def State.setWait (s : State) (w : Option RegNum) : State := { s with wait := w }

/-- Ready <- b (R33). -/
def State.setReady (s : State) (b : Bool) : State := { s with ready := b }

/-- Halt <- h (R34). -/
def State.setHalt (s : State) (h : Option FaultRecord) : State := { s with halt := h }

/-! ### The model's own fields -/

/-- Replaces the pending transactions. -/
def State.setInbox (s : State) (l : List Transaction) : State := { s with inbox := l }

/-- Sets how many iterations the current batch has left. -/
def State.setBatch (s : State) (b : Option Nat) : State := { s with batch := b }

/-- Records the result of a host call. -/
def State.setReply (s : State) (r : Option Reply) : State := { s with reply := r }

/-- Records the call made of the tone device. -/
def State.setToneCall (s : State) (c : Option ToneCall) : State := { s with toneCall := c }

/-! ### Memory -/

/-- What an address with no entry reads as: the byte construction left there, FONT at 0x000..0x04F and 0
elsewhere (R37, log 13). -/
def Memory.unlisted (font : Vector Byte fontLen) (a : Nat) : Byte :=
  if h : a < fontLen then font[a] else 0

/-- The byte at address a. -/
def Memory.read (font : Vector Byte fontLen) : Memory → Nat → Byte
  | [], a => Memory.unlisted font a
  | (b, w) :: rest, a => if b = a then w else Memory.read font rest a

/-- An entry for address a, in front of entries at higher addresses; none for the byte an unlisted address reads as. -/
def Memory.entry (font : Vector Byte fontLen) (a : Nat) (v : Byte) (rest : Memory) : Memory :=
  if v = Memory.unlisted font a then rest else (a, v) :: rest

/-- Mem[a] <- v, keeping the canonical form. -/
def Memory.write (font : Vector Byte fontLen) : Memory → Nat → Byte → Memory
  | [], a, v => Memory.entry font a v []
  | (b, w) :: rest, a, v =>
    if a < b then Memory.entry font a v ((b, w) :: rest)
    else if a = b then Memory.entry font a v rest
    else (b, w) :: Memory.write font rest a v

/-- Writes bytes at a, a+1, ..., in ascending order (R57). -/
def Memory.writeList (font : Vector Byte fontLen) : Memory → Nat → List Byte → Memory
  | m, _, [] => m
  | m, a, b :: rest => Memory.writeList font (Memory.write font m a b) (a + 1) rest

/-- The entries stand at rising addresses, each above `low` or equal to it, inside memory, and none holds the byte
an unlisted address reads as. -/
def Memory.wfFrom (font : Vector Byte fontLen) : Nat → Memory → Bool
  | _, [] => true
  | low, (a, v) :: rest =>
    decide (low ≤ a) && decide (a < memSize) && decide (v ≠ Memory.unlisted font a) &&
      Memory.wfFrom font (a + 1) rest

/-- The canonical form: equal memories are equal lists. -/
def Memory.wf (font : Vector Byte fontLen) (m : Memory) : Bool := Memory.wfFrom font 0 m

/-- The byte at address a of the machine's memory: `Mem[a]`, what MemRead(a, 1) returns in range (R52). -/
def State.readByte (s : State) (a : Nat) : Byte := Memory.read s.cfg.font s.mem a

/-- Replaces memory. -/
def State.setMem (s : State) (m : Memory) : State := { s with mem := m }

/-- `Mem[a] <- v`, what MemWrite(a, 1, v) does in range (R53). -/
def State.writeByte (s : State) (a : Nat) (v : Byte) : State := s.setMem (Memory.write s.cfg.font s.mem a v)

/-- MemWrite of bytes at a, a+1, ..., in ascending order (R57). -/
def State.writeBytes (s : State) (a : Nat) (l : List Byte) : State :=
  s.setMem (Memory.writeList s.cfg.font s.mem a l)

/-- MemRead of the `len` bytes at a, a+1, ..., in ascending order (R57). -/
def State.readBytes (s : State) (a len : Nat) : List Byte := (List.range len).map fun k => s.readByte (a + k)

/-- The register file with bytes put into V[x], V[x+1], ..., in ascending order, none beyond VF. -/
def loadInto (v : Vector Byte 16) (x : Nat) : List Byte → Vector Byte 16
  | [] => v
  | b :: rest => if h : x < 16 then loadInto (v.set x b) (x + 1) rest else v

/-- The check an access of `len` bytes at `base` makes before any effect: the lowest of base .. base + len - 1
that lies outside memory, if there is one; addresses are sums that never wrap (R52 to R55). -/
def outOfRange (base len : Nat) : Option Nat :=
  if len = 0 then none else if memSize ≤ base + len - 1 then some (max base memSize) else none

/-! ### Faults -/

/-- The numeric code of a fault kind (R241). -/
def FaultKind.code : FaultKind → Nat
  | .unknownOpcode => 1
  | .stackUnderflow => 2
  | .stackOverflow => 3
  | .addressOutOfRange => 4
  | .keyOutOfRange => 5

/-- `raise Fault(kind, ...)`: Halt <- Halted(rec), and the current batch ends at once with result Halted, its
timers not ticked and its tone not gated (R107, R244). No fault can be returned from: nothing clears Halt (R246). -/
def raise (kind : FaultKind) (pc : Word) (op : Option Word) (addr : Option Nat) (s : State) : State :=
  ((s.setHalt (some { kind := kind, pc := pc, op := op, addr := addr })).setBatch none).setReply (some .halted)

/-- A, the address of the opcode being executed: PC holds A + 2 meanwhile (R24, R110). -/
def State.opcodeAddress (s : State) : Word := s.pc - 2

/-- A fault raised by the instruction i itself: the record holds A and i's opcode (R243, log 10). -/
def raiseIn (i : Instr) (kind : FaultKind) (addr : Option Nat) (s : State) : State :=
  raise kind s.opcodeAddress (some (encode i)) addr s

/-! ### Control flow -/

/-- Skips the next opcode if c holds: PC <- (PC + 2) mod 65536 (R138). -/
def skipIf (c : Bool) (s : State) : State := if c then s.setPc (s.pc + 2) else s

end Sys2Proof.Machine
end

