-- ==== Sys2Proof/Machine/Devices.lean ====
section
/-! DEFINITION. The collaborators' contracts: display, keys, tone and the random source (R259 to R264, R162). -/

namespace Sys2Proof.Machine

/-! ### Display -/

/-- FB[px][py]. -/
def Framebuffer.pixel (fb : Framebuffer) (px : Fin 64) (py : Fin 32) : Bool := fb[px.val][py.val]

/-- `Disp.setPixel(px, py)` on the pixels: an XOR toggle, and whether the pixel became off (R259). -/
def Framebuffer.toggle (fb : Framebuffer) (px : Fin 64) (py : Fin 32) : Framebuffer × Bool :=
  let old := Framebuffer.pixel fb px py
  (fb.set px.val (fb[px.val].set py.val (!old)), old)

/-- FB[px][py] of the machine. -/
def State.pixel (s : State) (px : Fin 64) (py : Fin 32) : Bool := Framebuffer.pixel s.fb px py

/-- Replaces the display's pixels. -/
def State.setFb (s : State) (fb : Framebuffer) : State := { s with fb := fb }

/-- `Disp.clear()`: every pixel becomes 0 (R260). -/
def State.dispClear (s : State) : State := s.setFb (Vector.replicate 64 (Vector.replicate 32 false))

/-! ### Keys -/

/-- `Keys.isPressed(k)` (R261). -/
def State.isPressed (s : State) (k : KeyCode) : Bool := s.keys[k.val]

/-- The key device sets K[k] (R262). -/
def State.setKey (s : State) (k : KeyCode) (pressed : Bool) : State := { s with keys := s.keys.set k.val pressed }

/-- Arms or disarms the one-shot callback slot. -/
def State.setCallback (s : State) (armed : Bool) : State := { s with callbackArmed := armed }

/-- `Keys.registerNextKeyCallback()`: arms the slot (R263). -/
def State.registerNextKeyCallback (s : State) : State := s.setCallback true

/-! ### Tone -/

/-- Sets ToneOn. -/
def State.setToneOn (s : State) (on : Bool) : State := { s with toneOn := on }

/-- `Tone.play(hz)`; the tone device plays (R253, R264). -/
def State.tonePlay (s : State) (hz : Nat) : State := (s.setToneCall (some (.play hz))).setToneOn true

/-- `Tone.stop()`; the tone device is silent (R253, R264). -/
def State.toneStop (s : State) : State := (s.setToneCall (some .stop)).setToneOn false

/-! ### Random source -/

/-- Records that one more byte has been drawn. -/
def State.setDraws (s : State) (k : Nat) : State := { s with draws := k }

/-- The byte the next call of Rand8() gives: a free value (R162, log 1). -/
def State.rand8 (s : State) : Byte := Config.randomByte s.draws

/-- The machine after one call of Rand8(). -/
def State.drawn (s : State) : State := s.setDraws (s.draws + 1)

end Sys2Proof.Machine
end

