-- ==== Sys2Proof/Machine/Flags.lean ====
section
/-! DEFINITION. The values the instructions write into VF as a flag (R164). -/

namespace Sys2Proof.Machine

/-- A condition as a flag byte: 1 or 0. -/
def flagByte (c : Bool) : Byte := if c then 1 else 0

/-- 8xy4: 1 if the 9-bit sum exceeds 255 (R156). -/
def carryFlag (a b : Byte) : Byte := flagByte (255 < a.toNat + b.toNat)

/-- 8xy5, 8xy7: 1 if the minuend is strictly greater than the subtrahend (R157, R159, R163). -/
def greaterFlag (minuend subtrahend : Byte) : Byte := flagByte (subtrahend.toNat < minuend.toNat)

/-- 8xy6: the bit shifted out on the right, bit 0 (R158). -/
def lowBitFlag (a : Byte) : Byte := a &&& 1

/-- 8xyE: the bit shifted out on the left, bit 7, normalised to 0 or 1 (R160). -/
def highBitFlag (a : Byte) : Byte := flagByte (a &&& 0x80 ≠ 0)

/-- V[15] <- f. VF is one storage cell with the general register V15 (R21). -/
def State.setFlag (s : State) (f : Byte) : State := s.setReg vf f

end Sys2Proof.Machine
end

