-- ==== Sys2Proof/Machine/Alu.lean ====
section
/-! DEFINITION. Register loads, arithmetic and logic: 6xkk, 7xkk, 8xy0 to 8xy7, 8xyE, Cxkk (42_alu.md). Statements run in
the order their rule writes them, so a read after the flag write sees the new VF (R10). -/

namespace Sys2Proof.Machine

/-- 6xkk (R150). -/
def execLdImm (x : RegNum) (kk : Byte) (s : State) : Host.Outcome State Fault Refusal := .next (s.setReg x kk)

/-- 7xkk: VF is not a flag here (R151). -/
def execAddImm (x : RegNum) (kk : Byte) (s : State) : Host.Outcome State Fault Refusal :=
  .next (s.setReg x (s.reg x + kk))

/-- 8xy0 (R152). -/
def execLdReg (x y : RegNum) (s : State) : Host.Outcome State Fault Refusal := .next (s.setReg x (s.reg y))

/-- 8xy1 (R153). -/
def execOrReg (x y : RegNum) (s : State) : Host.Outcome State Fault Refusal :=
  .next (s.setReg x (s.reg x ||| s.reg y))

/-- 8xy2 (R154). -/
def execAndReg (x y : RegNum) (s : State) : Host.Outcome State Fault Refusal :=
  .next (s.setReg x (s.reg x &&& s.reg y))

/-- 8xy3 (R155). -/
def execXorReg (x y : RegNum) (s : State) : Host.Outcome State Fault Refusal :=
  .next (s.setReg x (s.reg x ^^^ s.reg y))

/-- 8xy4: the sum is bound before any write (R156). -/
def execAddReg (x y : RegNum) (s : State) : Host.Outcome State Fault Refusal :=
  let t := s.reg x + s.reg y
  .next ((s.setFlag (carryFlag (s.reg x) (s.reg y))).setReg x t)

/-- 8xy5: the subtraction reads Vx and Vy after the VF write (R157). -/
def execSubReg (x y : RegNum) (s : State) : Host.Outcome State Fault Refusal :=
  let s1 := s.setFlag (greaterFlag (s.reg x) (s.reg y))
  .next (s1.setReg x (s1.reg x - s1.reg y))

/-- 8xy6: Vy is not read; the shift reads Vx after the VF write (R158). -/
def execShr (x _y : RegNum) (s : State) : Host.Outcome State Fault Refusal :=
  let s1 := s.setFlag (lowBitFlag (s.reg x))
  .next (s1.setReg x (s1.reg x >>> 1))

/-- 8xy7: the subtraction reads Vx and Vy after the VF write (R159). -/
def execSubnReg (x y : RegNum) (s : State) : Host.Outcome State Fault Refusal :=
  let s1 := s.setFlag (greaterFlag (s.reg y) (s.reg x))
  .next (s1.setReg x (s1.reg y - s1.reg x))

/-- 8xyE: Vy is not read; the shift reads Vx after the VF write (R160). -/
def execShl (x _y : RegNum) (s : State) : Host.Outcome State Fault Refusal :=
  let s1 := s.setFlag (highBitFlag (s.reg x))
  .next (s1.setReg x (s1.reg x <<< 1))

/-- What Cxkk does with the byte r that Rand8() gave (R161). -/
def rndWith (r : Byte) (x : RegNum) (kk : Byte) (s : State) : State := s.setReg x (r &&& kk)

/-- Cxkk: one draw, a free value (R161, R162, log 1). -/
def execRnd (x : RegNum) (kk : Byte) (s : State) : Host.Outcome State Fault Refusal :=
  .next (rndWith s.rand8 x kk s.drawn)

end Sys2Proof.Machine
end

