-- ==== Sys2Proof/Machine/Operands.lean ====
section
/-! DEFINITION. The operand forms: zero extension, the effective address, and key codes. -/

namespace Sys2Proof.Machine

/-- `zext_16` of a byte (R8, R83). -/
def zext16 (b : Byte) : Word := BitVec.zeroExtend 16 b

/-- The one addressing mode: I + k as an integer, never masked or wrapped (R55, R186). -/
def State.effectiveAddress (s : State) (k : Nat) : Nat := s.i.toNat + k

/-- The key a register names: none when Vx > 15 (R220, R221). -/
def State.keyOperand (s : State) (x : RegNum) : Option KeyCode :=
  if h : (s.reg x).toNat < 16 then some ⟨(s.reg x).toNat, h⟩ else none

/-- V0..Vx, in ascending order: the x + 1 registers Fx55 stores (R184). -/
def State.regsUpTo (s : State) (x : RegNum) : List Byte := s.v.toList.take (x.val + 1)

end Sys2Proof.Machine
end

