-- ==== Sys2Proof/Machine/Display.lean ====
section
/-! DEFINITION. Display instructions: 00E0, Dxyn (44_display.md). -/

namespace Sys2Proof.Machine

/-- 00E0 (R200). -/
def execCls (s : State) : Host.Outcome State Fault Refusal := .next s.dispClear

/-- Whether column `col` of a sprite row is drawn: bit 7 is the leftmost pixel (R201, R202). -/
def spriteBit (row : Byte) (col : Nat) : Bool := row.getLsbD (7 - col)

/-- One pixel of a sprite: XORs it, at coordinates reduced modulo 64 and 32 (R203), and records an erased pixel in the
hit bit that accompanies the display's pixels. -/
def drawPixel (cx cy row : Nat) (sprite : Byte) (acc : Framebuffer × Bool) (col : Nat) : Framebuffer × Bool :=
  if spriteBit sprite col then
    let drawn := Framebuffer.toggle acc.1 (Fin.ofNat 64 (cx + col)) (Fin.ofNat 32 (cy + row))
    (drawn.1, acc.2 || drawn.2)
  else acc

/-- The eight columns of row `row` of a sprite, left to right. -/
def drawRow (cx cy row : Nat) (sprite : Byte) (acc : Framebuffer × Bool) : Framebuffer × Bool :=
  (List.range 8).foldl (drawPixel cx cy row sprite) acc

/-- The sprite's rows, top to bottom, from row number `row` on. -/
def drawRows (cx cy : Nat) : Nat → List Byte → Framebuffer × Bool → Framebuffer × Bool
  | _, [], acc => acc
  | row, sprite :: rest, acc => drawRows cx cy (row + 1) rest (drawRow cx cy row sprite acc)

/-- Dxyn: Vx, Vy, n and I are read before any write; VF is written once, after all pixels (R201). -/
def execDrw (x y : RegNum) (n : Nat) (s : State) : Host.Outcome State Fault Refusal :=
  match outOfRange (s.effectiveAddress 0) n with
  | some addr => .next (raiseIn (.drw x y n) .addressOutOfRange (some addr) s)
  | none =>
    let drawn :=
      drawRows (s.reg x).toNat (s.reg y).toNat 0 (s.readBytes (s.effectiveAddress 0) n) (s.fb, false)
    .next ((s.setFb drawn.1).setFlag (flagByte drawn.2))

end Sys2Proof.Machine
end

