-- ==== Sys2Proof/Machine/Flow.lean ====
section
/-! DEFINITION. Control transfer and skips: 00EE, 1nnn, 2nnn, 3xkk, 4xkk, 5xy0, 9xy0, Bnnn (41_flow.md). PC is A + 2
when a meaning starts. -/

namespace Sys2Proof.Machine

/-- 00EE (R130). -/
def execRet (s : State) : Host.Outcome State Fault Refusal :=
  match s.stack with
  | [] => .next (raiseIn .ret .stackUnderflow none s)
  | top :: rest => .next ((s.setStack rest).setPc top)

/-- 1nnn (R131). -/
def execJp (nnn : Word) (s : State) : Host.Outcome State Fault Refusal := .next (s.setPc nnn)

/-- 2nnn: pushes the incremented PC, A + 2 (R132). -/
def execCall (nnn : Word) (s : State) : Host.Outcome State Fault Refusal :=
  if s.cfg.stackDepth ≤ s.stack.length then .next (raiseIn (.call nnn) .stackOverflow none s)
  else .next ((s.push s.pc).setPc nnn)

/-- 3xkk (R133). -/
def execSeImm (x : RegNum) (kk : Byte) (s : State) : Host.Outcome State Fault Refusal :=
  .next (skipIf (s.reg x == kk) s)

/-- 4xkk (R134). -/
def execSneImm (x : RegNum) (kk : Byte) (s : State) : Host.Outcome State Fault Refusal :=
  .next (skipIf (s.reg x != kk) s)

/-- 5xy0 (R135). -/
def execSeReg (x y : RegNum) (s : State) : Host.Outcome State Fault Refusal :=
  .next (skipIf (s.reg x == s.reg y) s)

/-- 9xy0 (R136). -/
def execSneReg (x y : RegNum) (s : State) : Host.Outcome State Fault Refusal :=
  .next (skipIf (s.reg x != s.reg y) s)

/-- Bnnn: the sum is not masked to 12 bits (R137). -/
def execJpV0 (nnn : Word) (s : State) : Host.Outcome State Fault Refusal :=
  .next (s.setPc (nnn + zext16 (s.reg 0)))

end Sys2Proof.Machine
end

