-- ==== Sys2Proof/Machine/IndexMemory.lean ====
section
/-! DEFINITION. Index register and memory transfers: Annn, Fx1E, Fx29, Fx33, Fx55, Fx65 (43_index_memory.md). A memory
instruction checks every address before any effect (R54). -/

namespace Sys2Proof.Machine

/-- Annn (R180). -/
def execLdI (nnn : Word) (s : State) : Host.Outcome State Fault Refusal := .next (s.setI nnn)

/-- Fx1E: the sum is reduced to 16 bits; VF is not written (R181). -/
def execAddI (x : RegNum) (s : State) : Host.Outcome State Fault Refusal :=
  .next (s.setI (s.i + zext16 (s.reg x)))

/-- Fx29: the full byte Vx times 5 (R182). -/
def execLdF (x : RegNum) (s : State) : Host.Outcome State Fault Refusal :=
  .next (s.setI (zext16 (s.reg x) * 5))

/-- The hundreds, tens and units of a byte (R183). -/
def decimalDigits (v : Byte) : List Byte := [v / 100, v % 100 / 10, v % 10]

/-- Fx33 (R183). -/
def execLdB (x : RegNum) (s : State) : Host.Outcome State Fault Refusal :=
  match outOfRange (s.effectiveAddress 0) 3 with
  | some addr => .next (raiseIn (.ldB x) .addressOutOfRange (some addr) s)
  | none => .next (s.writeBytes (s.effectiveAddress 0) (decimalDigits (s.reg x)))

/-- Fx55: V0..Vx to memory at I; I is unchanged (R184). -/
def execStoreRegs (x : RegNum) (s : State) : Host.Outcome State Fault Refusal :=
  match outOfRange (s.effectiveAddress 0) (x.val + 1) with
  | some addr => .next (raiseIn (.storeRegs x) .addressOutOfRange (some addr) s)
  | none => .next (s.writeBytes (s.effectiveAddress 0) (s.regsUpTo x))

/-- Fx65: memory at I to V0..Vx; I is unchanged (R185). -/
def execLoadRegs (x : RegNum) (s : State) : Host.Outcome State Fault Refusal :=
  match outOfRange (s.effectiveAddress 0) (x.val + 1) with
  | some addr => .next (raiseIn (.loadRegs x) .addressOutOfRange (some addr) s)
  | none => .next (s.setRegs (loadInto s.v 0 (s.readBytes (s.effectiveAddress 0) (x.val + 1))))

end Sys2Proof.Machine
end

