-- ==== Sys2Proof/Machine/KeysTimers.lean ====
section
/-! DEFINITION. Key and timer instructions: Ex9E, ExA1, Fx07, Fx0A, Fx15, Fx18 (45_keys_timers.md). -/

namespace Sys2Proof.Machine

/-- Ex9E (R220). -/
def execSkp (x : RegNum) (s : State) : Host.Outcome State Fault Refusal :=
  match s.keyOperand x with
  | none => .next (raiseIn (.skp x) .keyOutOfRange none s)
  | some k => .next (skipIf (s.isPressed k) s)

/-- ExA1 (R221). -/
def execSknp (x : RegNum) (s : State) : Host.Outcome State Fault Refusal :=
  match s.keyOperand x with
  | none => .next (raiseIn (.sknp x) .keyOutOfRange none s)
  | some k => .next (skipIf (!s.isPressed k) s)

/-- Fx07 (R222). -/
def execLdVxDt (x : RegNum) (s : State) : Host.Outcome State Fault Refusal := .next (s.setReg x s.dt)

/-- Fx0A: completes at once; Vx is written when a key is pressed (R223). -/
def execLdVxK (x : RegNum) (s : State) : Host.Outcome State Fault Refusal :=
  .next (s.setWait (some x)).registerNextKeyCallback

/-- Fx15 (R224). -/
def execLdDtVx (x : RegNum) (s : State) : Host.Outcome State Fault Refusal := .next (s.setDt (s.reg x))

/-- Fx18 (R225). -/
def execLdStVx (x : RegNum) (s : State) : Host.Outcome State Fault Refusal := .next (s.setSt (s.reg x))

end Sys2Proof.Machine
end

