-- ==== Sys2Proof/Machine/Cycle.lean ====
section
/-! DEFINITION. One cycle: fetch, pre-increment, decode, execute (40_cycle.md R108 to R111). -/

namespace Sys2Proof.Machine

/-- The opcode at PC: high byte at PC, low byte at PC + 1 (R56, R108). -/
def fetchWord (s : State) : Word := joinBytes (s.readByte s.pc.toNat) (s.readByte (s.pc.toNat + 1))

/-- PC <- (A + 2) mod 65536, after a successful fetch and before decoding (R109). -/
def preIncrement (s : State) : State := s.setPc (s.pc + 2)

/-- Decodes and executes the fetched opcode `op`, PC having been incremented (R110). -/
def decodeAndExecute (op : Word) (s : State) : Host.Outcome State Fault Refusal :=
  match decodeWord op with
  | .error _ => .next (raise .unknownOpcode s.opcodeAddress (some op) none s)
  | .ok i => exec i s

/-- `Cycle()`: both bytes of the opcode are bound-checked before either is read (R108). -/
def cycle (s : State) : Host.Outcome State Fault Refusal :=
  match outOfRange s.pc.toNat 2 with
  | some addr => .next (raise .addressOutOfRange s.pc none (some addr) s)
  | none => decodeAndExecute (fetchWord s) (preIncrement s)

end Sys2Proof.Machine
end

