-- ==== Sys2Proof/Machine/Batch.lean ====
section
/-! DEFINITION. The batch: its gate, its iterations, its end, and the whole of `runCycleBatch(n)` as one transaction
(40_cycle.md R101 to R107; 60_exceptions.md R251 to R254). -/

namespace Sys2Proof.Machine

/-- Runs `k` on the next state, if there is one. -/
def andThen (o : Host.Outcome State Fault Refusal) (k : State → Host.Outcome State Fault Refusal) :
    Host.Outcome State Fault Refusal :=
  match o with
  | .next s => k s
  | .fault r => .fault r
  | .refused r => .refused r

/-- Why a batch may not run: the core is halted (R101), or no program is loaded (R102). -/
def batchRefusal (s : State) : Option Reply :=
  if s.halt.isSome then some .halted else if s.ready then none else some .notLoaded

/-- One iteration of the batch's loop: a cycle, or nothing while paused (R103, R106). -/
def iteration (s : State) : Host.Outcome State Fault Refusal :=
  if s.wait.isNone then cycle s else .next s

/-- A timer's next value: one less, floored at 0 (R251). -/
def ticked (b : Byte) : Byte := if 0 < b.toNat then b - 1 else b

/-- `TickTimers()` (R251). -/
def tickTimers (s : State) : State := (s.setDt (ticked s.dt)).setSt (ticked s.st)

/-- `GateTone()`, from ST as it stands after the tick (R253). -/
def gateTone (s : State) : State := if 0 < s.st.toNat then s.tonePlay toneHz else s.toneStop

/-- What follows the batch's loop: the timers tick, in a paused batch too where TICK_WHILE_PAUSED says so (R104, R254);
the tone is gated (R105); the result is Ran (R103). -/
def endOfBatch (s : State) : State :=
  let s1 := if s.cfg.tickWhilePaused || s.wait.isNone then tickTimers s else s
  ((gateTone s1).setBatch none).setReply (some .ran)

/-- One step of a batch that has k iterations left. A batch under way in a core that is halted or not loaded, which
no run reaches, is dropped with that result (log 12). -/
def batchStep (k : Nat) (s : State) : Host.Outcome State Fault Refusal :=
  match batchRefusal s with
  | some r => .next ((s.setBatch none).setReply (some r))
  | none =>
    match k with
    | 0 => .next (endOfBatch s)
    | k + 1 => iteration (s.setBatch (some k))

/-- The call `runCycleBatch(n)` begins: it is turned away, or a batch of n iterations is under way and no tone call has
been made in it (R101 to R103). -/
def beginBatch (n : Nat) (s : State) : State :=
  match batchRefusal s with
  | some r => (s.setToneCall none).setReply (some r)
  | none => (s.setToneCall none).setBatch (some n)

/-- The loop of R103, ended at once by a fault (R107). -/
def batchLoop : Nat → State → Host.Outcome State Fault Refusal
  | 0, s => .next s
  | k + 1, s => andThen (iteration s) fun s1 => if s1.halt.isSome then .next s1 else batchLoop k s1

/-- `runCycleBatch(n)` as one atomic transaction, as R101 to R107 write it. The machine runs a batch in steps
(`batchStep`); this is what those steps add up to. -/
def runCycleBatch (n : Nat) (s : State) : Host.Outcome State Fault Refusal :=
  match batchRefusal s with
  | some r => .next ((s.setToneCall none).setReply (some r))
  | none => andThen (batchLoop n (s.setToneCall none)) fun s1 =>
      if s1.halt.isSome then .next s1 else .next (endOfBatch s1)

end Sys2Proof.Machine
end

