-- ==== Sys2Proof/Machine/HostCalls.lean ====
section
/-! DEFINITION. The transactions on the core's boundary: loading, key events, introspection (R38, R100, R112, R113, R282
to R287). -/

namespace Sys2Proof.Machine

/-- The steps of a load that is accepted: copy the program to 0x200, install the font at 0x000, mark the machine
ready (R283 to R285). Nothing else changes (R286). -/
def install (bytes : List Byte) (s : State) : State :=
  ((s.writeBytes progBase bytes).writeBytes 0 s.cfg.font.toList).setReady true

/-- `loadProgram(bytes)` (R282 to R287). -/
def loadProgram (bytes : List Byte) (s : State) : State :=
  if s.halt.isSome then s.setReply (some .halted)
  else if maxProg < bytes.length then s.setReply (some .oversizedProgram)
  else (install bytes s).setReply (some .loaded)

/-- A press of key k: the level rises, and a core that waits, not halted, takes the key code and runs on (R112). -/
def keyPress (k : KeyCode) (s : State) : State :=
  let s1 := s.setKey k true
  match s1.halt, s1.wait with
  | none, some x => ((s1.setReg x (BitVec.ofNat 8 k.val)).setWait none).setCallback false
  | _, _ => s1

/-- A release of key k (R113). -/
def keyRelease (k : KeyCode) (s : State) : State := s.setKey k false

/-- What introspection shows (R38). -/
def introspection (s : State) : Introspection where
  v := s.v
  pc := s.pc
  i := s.i
  stackDepth := s.stack.length
  dt := s.dt
  st := s.st
  wait := s.wait
  ready := s.ready
  halt := s.halt

/-- One transaction, between batches (R100, R114). -/
def perform (t : Transaction) (s : State) : State :=
  match t with
  | .loadProgram bytes => loadProgram bytes s
  | .runCycleBatch n => beginBatch n s
  | .keyPress k => keyPress k s
  | .keyRelease k => keyRelease k s
  | .introspect => s.setReply (some (.introspection (introspection s)))

/-- A step between batches: the next pending transaction happens; with none pending the core idles (R114, log 6). -/
def hostStep (s : State) : Host.Outcome State Fault Refusal :=
  match s.inbox with
  | [] => .next s
  | t :: rest => .next (perform t (s.setInbox rest))

/-! ### Placing an instruction where the next step runs it -/

/-- Where the next fetch can read two bytes: PC, or 0x200 where PC lies too high (log 7). -/
def fetchablePc (s : State) : Word := if s.pc.toNat + 1 < memSize then s.pc else BitVec.ofNat 16 progBase

/-- A core that runs a cycle at its next step: a program loaded, not halted, not waiting, in a batch with an iteration
left (log 7). -/
def running (s : State) : State :=
  let s1 := ((s.setReady true).setHalt none).setWait none
  let s2 := s1.setCallback false
  match s.batch with
  | some (_ + 1) => s2
  | _ => s2.setBatch (some 1)

/-- The opcode word stored big-endian at PC, in a core that runs it at its next step (log 7). -/
def placeWord (op : Word) (s : State) : State :=
  let s1 := (running s).setPc (fetchablePc s)
  s1.writeBytes s1.pc.toNat [highByte op, lowByte op]

end Sys2Proof.Machine
end

