-- ==== Sys2Proof/Machine/Step.lean ====
section
/-! DEFINITION. One step of the machine, and placing an opcode-table word where the next step runs it. -/

namespace Sys2Proof.Machine

/-- One step: the next iteration or the end of the batch under way (R103), else the next pending transaction (R100, log 5). -/
def step (s : State) : Host.Outcome State Fault Refusal :=
  match s.batch with
  | some k => batchStep k s
  | none => hostStep s

/-- `s` with an opcode-table word stored where the next step fetches it, and with all that the next step needs to run
it (log 7). -/
def State.withFetchWord (s : State) (nbits w : Nat) : State := placeWord (BitVec.ofNat 16 (w % 2 ^ nbits)) s

end Sys2Proof.Machine
end

