-- ==== Sys2Proof/Safety.lean ====
section
/-! DEFINITION. The terms the claims are stated in: the parts of the state, frames, halting with a record, and the
machine's invariant. -/

namespace Sys2Proof.Machine

/-- The parts of the state other than the V registers. -/
inductive Part where
  | index | pc | stack | delayTimer | soundTimer | memory | wait | ready | halt
  | display | keys | callback | tone
  | config | inbox | batch | reply | toneCall | draws
deriving DecidableEq, Repr

/-- A part of the state is the same in `s` and `t`. Memory and the display are compared by what each address and each
pixel reads as. -/
def Part.Same (s t : State) : Part → Prop
  | .index => t.i = s.i
  | .pc => t.pc = s.pc
  | .stack => t.stack = s.stack
  | .delayTimer => t.dt = s.dt
  | .soundTimer => t.st = s.st
  | .memory => ∀ a, t.readByte a = s.readByte a
  | .wait => t.wait = s.wait
  | .ready => t.ready = s.ready
  | .halt => t.halt = s.halt
  | .display => ∀ px py, t.pixel px py = s.pixel px py
  | .keys => ∀ k, t.isPressed k = s.isPressed k
  | .callback => t.callbackArmed = s.callbackArmed
  | .tone => t.toneOn = s.toneOn
  | .config => t.cfg = s.cfg
  | .inbox => t.inbox = s.inbox
  | .batch => t.batch = s.batch
  | .reply => t.reply = s.reply
  | .toneCall => t.toneCall = s.toneCall
  | .draws => t.draws = s.draws

/-- Nothing changes from `s` to `t` but the V registers in `regs` and the parts in `parts`. -/
structure Frame (regs : List RegNum) (parts : List Part) (s t : State) : Prop where
  /-- Every V register outside `regs` holds what it held. -/
  regs : ∀ r, r ∉ regs → t.reg r = s.reg r
  /-- Every part outside `parts` is what it was. -/
  parts : ∀ p, p ∉ parts → p.Same s t

/-- From `s` to `t` the core halts with the record `r`, the batch ends with result Halted, and nothing else changes
(R244, R245). -/
structure HaltsWith (r : FaultRecord) (s t : State) : Prop where
  halt : t.halt = some r
  batch : t.batch = none
  reply : t.reply = some .halted
  frame : Frame [] [.halt, .batch, .reply] s t

/-- The record of a fault that the instruction i raises: A is two below PC, and the opcode is i's (R243). -/
def faultOf (i : Instr) (kind : FaultKind) (addr : Option Nat) (s : State) : FaultRecord :=
  { kind := kind, pc := s.pc - 2, op := some (encode i), addr := addr }

/-- The pixel (px, py) is reached by a 1 bit of the sprite of n bytes at `I` drawn at the origin (Vx, Vy): bit 7 of a
byte is its leftmost column, and coordinates wrap modulo 64 and 32 (R201 to R203). -/
def SpriteCovers (s : State) (x y : RegNum) (n : Nat) (px : Fin 64) (py : Fin 32) : Prop :=
  ∃ row < n, ∃ col < 8, (s.readByte (s.i.toNat + row)).getLsbD (7 - col) = true ∧
    px.val = ((s.reg x).toNat + col) % 64 ∧ py.val = ((s.reg y).toNat + row) % 32

/-- The next pending transaction is `t`, and no batch is under way. -/
structure Pending (t : Transaction) (s : State) : Prop where
  batch : s.batch = none
  inbox : s.inbox.head? = some t

/-- The words R86 lists as unknown opcodes, by its six lines. -/
def UnknownWord (w : Word) : Prop :=
  (w.toNat < 0x1000 ∧ w ≠ 0x00E0 ∧ w ≠ 0x00EE) ∨
  (w.toNat / 0x1000 = 0x5 ∧ w.toNat % 0x10 ≠ 0) ∨
  (w.toNat / 0x1000 = 0x8 ∧ w.toNat % 0x10 ∈ [0x8, 0x9, 0xA, 0xB, 0xC, 0xD, 0xF]) ∨
  (w.toNat / 0x1000 = 0x9 ∧ w.toNat % 0x10 ≠ 0) ∨
  (w.toNat / 0x1000 = 0xE ∧ w.toNat % 0x100 ∉ [0x9E, 0xA1]) ∨
  (w.toNat / 0x1000 = 0xF ∧ w.toNat % 0x100 ∉ [0x07, 0x0A, 0x15, 0x18, 0x1E, 0x29, 0x33, 0x55, 0x65])

/-- The core runs a cycle at its next step: a batch with an iteration left after it, loaded, not halted, not waiting. -/
structure Cycling (s : State) (left : Nat) : Prop where
  batch : s.batch = some (left + 1)
  ready : s.ready = true
  halt : s.halt = none
  wait : s.wait = none

/-- What holds of the machine from construction on. -/
structure State.Inv (s : State) : Prop where
  /-- The stack never holds more than STACK_DEPTH entries (R27). -/
  depth : s.stack.length ≤ s.cfg.stackDepth
  /-- Every return address is one a 2nnn can push: at most 0x1000 (R26). -/
  returns : ∀ a ∈ s.stack, a.toNat ≤ 0x1000
  /-- PC stays far below its wrap (R26). -/
  pcBound : s.pc.toNat ≤ 0x10FE
  /-- The key callback is armed exactly while the core waits (R35, R263). -/
  armed : s.callbackArmed = s.wait.isSome
  /-- A batch is under way only in a core that is loaded and not halted (R101, R102, R107). -/
  batch : s.batch.isSome → s.ready = true ∧ s.halt = none
  /-- The core has not run, so nothing has halted it, before a program is loaded (R33, R34). -/
  loaded : s.halt.isSome → s.ready = true

/-- Memory is in its canonical form. -/
abbrev State.MemoryCanonical (s : State) : Prop := Memory.wf s.cfg.font s.mem = true

end Sys2Proof.Machine
end

