-- ==== Sys2Proof/Certificates/Slice0/Obligations.lean ====
section
/-! DEFINITION. The statements for the provers. A docstring that says "the spec's own choice" names a decision of
92_eei_decisions.md: what the spec, not its source, settles; "the model's choice" names an entry of the log. -/

open Sys2Proof Sys2Proof.Machine

/-! ### Encoding -/

/-- Words written out from the encoding lines of the rules decode to the instructions they stand for, and near misses
decode to none (30_encoding.md R81 to R84; the vectors E1 to E12, A34, K3, K8). That 0x5AB1 decodes to none is the spec's
own choice (R87, D16). -/
def Obligations.SampleWordsDecode : Prop :=
  decodeWord 0x00E0 = .ok .cls ∧ decodeWord 0x00EE = .ok .ret ∧
  decodeWord 0xD12F = .ok (.drw 0x1 0x2 0xF) ∧ decodeWord 0x8AB6 = .ok (.shr 0xA 0xB) ∧
  decodeWord 0xB123 = .ok (.jpV0 0x123) ∧ decodeWord 0xFF65 = .ok (.loadRegs 0xF) ∧
  decodeWord 0x5AB0 = .ok (.seReg 0xA 0xB) ∧ decodeWord 0xC30F = .ok (.rnd 0x3 0x0F) ∧
  decodeWord 0xE1A1 = .ok (.sknp 0x1) ∧ decodeWord 0xF50A = .ok (.ldVxK 0x5) ∧
  decodeWord 0x0000 = .error (.unknownOpcode 0x0000) ∧ decodeWord 0x0123 = .error (.unknownOpcode 0x0123) ∧
  decodeWord 0x00E1 = .error (.unknownOpcode 0x00E1) ∧ decodeWord 0x5AB1 = .error (.unknownOpcode 0x5AB1) ∧
  decodeWord 0xF01F = .error (.unknownOpcode 0xF01F)

/-- Decoding the word, or the bytes, of a well-formed instruction gives it back, every operand at every value its
field admits (R81 to R84, R56). -/
def Obligations.DecodeOfEncode : Prop :=
  ∀ i : Instr, i.wellFormed = true →
    decodeWord (encode i) = .ok i ∧ ∀ rest, decode (encodeBytes i ++ rest) = .ok (i, rest)

/-- A word that decodes is the encoding of a well-formed instruction: no bit of a word is dropped (R82 to R84). -/
def Obligations.EncodeOfDecode : Prop :=
  ∀ (w : Word) (i : Instr), decodeWord w = .ok i → i.wellFormed = true ∧ encode i = w

/-- The layered decoder agrees with the opcode table: a word decodes to an instruction of the row that covers it,
and no word has two rows (R84, R85). -/
def Obligations.DecoderAgreesWithOpcodeTable : Prop :=
  (∀ (w : Word) (i : Instr), decodeWord w = .ok i → i.row.covers w = true) ∧
  (∀ (w : Word) (j : Instr), j.row.covers w = true → ∃ i, decodeWord w = .ok i ∧ i.row = j.row)

/-- The words that do not decode are exactly those R86 lists. That 5xyN and 9xyN with N ≠ 0 are among them is the
spec's own choice (D16). -/
def Obligations.UnknownWordsAreThoseListed : Prop :=
  ∀ w : Word, decodeWord w = .error (.unknownOpcode w) ↔ UnknownWord w

/-! ### The cycle -/

/-- A step whose two bytes at PC decode to i runs i with PC two higher, modulo 65536, and one iteration fewer left in
the batch (R109; the high byte is at PC, R56). That PC is reduced modulo 65536 is the spec's own choice (D24). -/
def Obligations.StepRunsDecodedInstruction : Prop :=
  ∀ (s : State) (left : Nat) (i : Instr), Cycling s left → s.pc.toNat + 1 < 4096 →
    decode [s.readByte s.pc.toNat, s.readByte (s.pc.toNat + 1)] = .ok (i, []) →
    ∃ pc : Word, pc.toNat = (s.pc.toNat + 2) % 65536 ∧ step s = exec i ((s.setBatch (some left)).setPc pc)

/-- A fetch that would reach address 4096 halts the core with PC unmoved and the lowest bad address in the record: PC
itself, or 4096 when PC is 0x0FFF. The spec's own choice (D2, D5, D6). -/
def Obligations.FetchOutsideMemoryHalts : Prop :=
  ∀ (s : State) (left : Nat), Cycling s left → 4095 ≤ s.pc.toNat →
    ∃ t, step s = .next t ∧
      HaltsWith { kind := .addressOutOfRange, pc := s.pc, op := none,
                  addr := some (if s.pc.toNat = 4095 then 4096 else s.pc.toNat) } s t

/-- An unknown opcode halts the core with PC two higher and nothing else done; the record holds A and the opcode. That
it halts is the source's, how it halts and the record are the spec's own choice (D5, D6). -/
def Obligations.UnknownOpcodeHalts : Prop :=
  ∀ (s : State) (left : Nat) (w : Word), Cycling s left → s.pc.toNat + 1 < 4096 →
    w.toNat = (s.readByte s.pc.toNat).toNat * 256 + (s.readByte (s.pc.toNat + 1)).toNat → UnknownWord w →
    ∃ t, step s = .next t ∧
      HaltsWith { kind := .unknownOpcode, pc := s.pc, op := some w, addr := none } (s.setPc (s.pc + 2)) t

/-! ### The batch -/

/-- With TICK_WHILE_PAUSED true, the spec's value (R254, D18), the end of a batch, paused or not, takes both timers down
by one, floored at 0, calls the tone device to play 440 Hz when ST is then above 0 and to stop otherwise, and ends the
batch with result Ran; nothing else of the machine changes (R103, R251, R253). That the device is called at every such
batch's end is the spec's own choice (D29). -/
def Obligations.BatchEndTicksAndGates : Prop :=
  ∀ s : State, s.batch = some 0 → s.ready = true → s.halt = none → s.cfg.tickWhilePaused = true →
    ∃ t, step s = .next t ∧ t.batch = none ∧ t.reply = some .ran ∧
      t.dt.toNat = s.dt.toNat - 1 ∧ t.st.toNat = s.st.toNat - 1 ∧
      (0 < t.st.toNat → t.toneOn = true ∧ t.toneCall = some (.play 440)) ∧
      (t.st.toNat = 0 → t.toneOn = false ∧ t.toneCall = some .stop) ∧
      Frame [] [.delayTimer, .soundTimer, .tone, .toneCall, .batch, .reply] s t

/-- With TICK_WHILE_PAUSED false, the reading of R254 that the spec sets aside (D18), a batch that ends paused ticks no
timer but still gates the tone, by a call to play 440 Hz or to stop (R253); one that does not end paused ticks as usual.
Both end the batch with result Ran, and nothing else of the machine changes. -/
def Obligations.PausedBatchEndWithoutTicking : Prop :=
  ∀ s : State, s.batch = some 0 → s.ready = true → s.halt = none → s.cfg.tickWhilePaused = false →
    ∃ t, step s = .next t ∧ t.batch = none ∧ t.reply = some .ran ∧
      (s.wait ≠ none → t.dt = s.dt ∧ t.st = s.st) ∧
      (s.wait = none → t.dt.toNat = s.dt.toNat - 1 ∧ t.st.toNat = s.st.toNat - 1) ∧
      (0 < t.st.toNat → t.toneOn = true ∧ t.toneCall = some (.play 440)) ∧
      (t.st.toNat = 0 → t.toneOn = false ∧ t.toneCall = some .stop) ∧
      Frame [] [.delayTimer, .soundTimer, .tone, .toneCall, .batch, .reply] s t

/-- An iteration of a paused core does nothing but pass (R103, R106). -/
def Obligations.PausedIterationDoesNothing : Prop :=
  ∀ (s : State) (left : Nat) (x : RegNum), s.batch = some (left + 1) → s.ready = true → s.halt = none →
    s.wait = some x → step s = .next (s.setBatch (some left))

/-- Before any program is loaded a call of runCycleBatch changes nothing and answers NotLoaded; no tone call is made
(R102). -/
def Obligations.BatchBeforeLoadChangesNothing : Prop :=
  ∀ (s : State) (n : Nat), Pending (.runCycleBatch n) s → s.halt = none → s.ready = false →
    ∃ t, step s = .next t ∧ t.reply = some .notLoaded ∧ t.toneCall = none ∧ t.inbox = s.inbox.tail ∧
      Frame [] [.inbox, .reply, .toneCall] s t

/-- A halted core turns a call of runCycleBatch away; a loaded core that is not halted begins it. The halted case is
the spec's own choice (D5). -/
def Obligations.BatchBeginsUnlessHalted : Prop :=
  (∀ (s : State) (n : Nat), Pending (.runCycleBatch n) s → s.halt ≠ none →
    ∃ t, step s = .next t ∧ t.reply = some .halted ∧ t.toneCall = none ∧ t.inbox = s.inbox.tail ∧
      Frame [] [.inbox, .reply, .toneCall] s t) ∧
  (∀ (s : State) (n : Nat), Pending (.runCycleBatch n) s → s.halt = none → s.ready = true →
    ∃ t, step s = .next t ∧ t.batch = some n ∧ t.toneCall = none ∧ t.inbox = s.inbox.tail ∧
      Frame [] [.inbox, .batch, .toneCall] s t)

/-- A whole batch that begins paused executes no opcode, whatever n is: it only ends (R106, R254). -/
def Obligations.PausedBatchExecutesNothing : Prop :=
  ∀ (n : Nat) (s : State) (x : RegNum), s.ready = true → s.halt = none → s.wait = some x →
    runCycleBatch n s = .next (endOfBatch (s.setToneCall none))

/-- The steps of a batch add up to the one transaction R101 to R107 describe: from a pending runCycleBatch(n), n + 2
steps (its beginning, n iterations, its end) reach what the transaction gives, faults and refusals of the call
included. That a batch is several steps is the model's choice (log 5). -/
def Obligations.BatchStepsAddUpToTransaction : Prop :=
  ∀ (n : Nat) (s : State), s.batch = none → s.inbox = [.runCycleBatch n] →
    core.run (n + 2) s = runCycleBatch n (s.setInbox [])

/-! ### Host calls and key events -/

/-- An accepted load copies bytes[k] to 0x200 + k for every k, puts the font at 0x000..0x04F, and leaves every other
byte of memory alone (R283, R284, R286). That it leaves the other bytes alone is the spec's own choice (D20). Memory is
taken in its canonical form, which every step keeps (StepKeepsMemoryCanonical). -/
def Obligations.LoadCopiesProgramAndFont : Prop :=
  ∀ (s : State) (bytes : List Byte), Pending (.loadProgram bytes) s → s.halt = none → bytes.length ≤ 3584 →
    s.MemoryCanonical →
    ∃ t, step s = .next t ∧ (∀ k, (h : k < bytes.length) → t.readByte (0x200 + k) = bytes[k]) ∧
      (∀ j, (h : j < 80) → t.readByte j = s.cfg.font[j]) ∧
      (∀ a, 80 ≤ a → a < 0x200 ∨ 0x200 + bytes.length ≤ a → t.readByte a = s.readByte a)

/-- An accepted load marks the core ready, answers Loaded, and changes nothing else outside memory. What a load leaves
alone is the spec's own choice (D20, D22). -/
def Obligations.LoadKeepsTheRest : Prop :=
  ∀ (s : State) (bytes : List Byte), Pending (.loadProgram bytes) s → s.halt = none → bytes.length ≤ 3584 →
    ∃ t, step s = .next t ∧ t.ready = true ∧ t.reply = some .loaded ∧ t.inbox = s.inbox.tail ∧
      Frame [] [.memory, .ready, .reply, .inbox] s t

/-- A load over 3584 bytes, or into a halted core, changes nothing and says which. The spec's own choice (D5, D19). -/
def Obligations.RefusedLoadsChangeNothing : Prop :=
  ∀ (s : State) (bytes : List Byte), Pending (.loadProgram bytes) s → s.halt ≠ none ∨ 3584 < bytes.length →
    ∃ t, step s = .next t ∧ t.reply = some (if s.halt = none then .oversizedProgram else .halted) ∧
      t.inbox = s.inbox.tail ∧ Frame [] [.reply, .inbox] s t

/-- A key press in a core that waits and is not halted puts the key code into the waiting register, ends the wait and
disarms the callback (R112; when levels change and what ends a wait are the spec's own choice, D9, D10). -/
def Obligations.KeyPressEndsWait : Prop :=
  ∀ (s : State) (k : KeyCode) (x : RegNum), Pending (.keyPress k) s → s.halt = none → s.wait = some x →
    ∃ t, step s = .next t ∧ (t.reg x).toNat = k.val ∧ t.wait = none ∧ t.callbackArmed = false ∧
      (∀ j, t.isPressed j = if j = k then true else s.isPressed j) ∧ t.inbox = s.inbox.tail ∧
      Frame [x] [.wait, .callback, .keys, .inbox] s t

/-- Otherwise a key event changes only that key's level: a press when no wait is pending or the core is halted, and
every release (R112, R113; the spec's own choice, D5, D9). -/
def Obligations.KeyEventsOtherwiseSetLevel : Prop :=
  (∀ (s : State) (k : KeyCode), Pending (.keyPress k) s → s.wait = none ∨ s.halt ≠ none →
    ∃ t, step s = .next t ∧ (∀ j, t.isPressed j = if j = k then true else s.isPressed j) ∧
      t.inbox = s.inbox.tail ∧ Frame [] [.keys, .inbox] s t) ∧
  (∀ (s : State) (k : KeyCode), Pending (.keyRelease k) s →
    ∃ t, step s = .next t ∧ (∀ j, t.isPressed j = if j = k then false else s.isPressed j) ∧
      t.inbox = s.inbox.tail ∧ Frame [] [.keys, .inbox] s t)

/-- Introspection shows V0..VF, PC, I, the stack's depth, DT, ST, Wait, Ready and Halt, and changes nothing (R38; that
it shows the last three is the spec's own choice, D23). -/
def Obligations.IntrospectionOnlyReads : Prop :=
  ∀ s : State, Pending .introspect s →
    ∃ (t : State) (view : Introspection), step s = .next t ∧ t.reply = some (.introspection view) ∧
      (∀ r : RegNum, view.v[r.val] = s.reg r) ∧ view.pc = s.pc ∧ view.i = s.i ∧
      view.stackDepth = s.stack.length ∧ view.dt = s.dt ∧ view.st = s.st ∧ view.wait = s.wait ∧
      view.ready = s.ready ∧ view.halt = s.halt ∧ t.inbox = s.inbox.tail ∧ Frame [] [.reply, .inbox] s t

/-- After construction, with any parameters and any display contents, the core holds R37's values. The values of Wait,
Halt, the display, the keys and the tone are the spec's own choice (D5, D21). State.reset is construction with
STACK_DEPTH 16, TICK_WHILE_PAUSED true and the font of R31's table, the spec's own choice (D3, D14, D18), and with every
pixel off; that it takes those parameters and that display is the model's (logs 3, 4). -/
def Obligations.ConstructionValues : Prop :=
  (∀ (cfg : Config) (fb0 : Framebuffer), ∃ s, s = State.construct cfg fb0 ∧
    (∀ r, s.reg r = 0) ∧ s.i = 0 ∧ s.pc = 0x200 ∧ s.stack = [] ∧ s.dt = 0 ∧ s.st = 0 ∧
    (∀ j, (h : j < 80) → s.readByte j = cfg.font[j]) ∧ (∀ a, 80 ≤ a → s.readByte a = 0) ∧
    s.wait = none ∧ s.ready = false ∧ s.halt = none ∧ s.fb = fb0 ∧ (∀ k, s.isPressed k = false) ∧
    s.callbackArmed = false ∧ s.toneOn = false ∧ s.cfg = cfg) ∧
  (∃ (cfg : Config) (fb0 : Framebuffer), State.reset = State.construct cfg fb0 ∧
    cfg.stackDepth = 16 ∧ cfg.tickWhilePaused = true ∧ (∀ px py, State.reset.pixel px py = false) ∧
    cfg.font.toList =
      [0xF0, 0x90, 0x90, 0x90, 0xF0] ++ [0x20, 0x60, 0x20, 0x20, 0x70] ++ -- 0, 1
      [0xF0, 0x10, 0xF0, 0x80, 0xF0] ++ [0xF0, 0x10, 0xF0, 0x10, 0xF0] ++ -- 2, 3
      [0x90, 0x90, 0xF0, 0x10, 0x10] ++ [0xF0, 0x80, 0xF0, 0x10, 0xF0] ++ -- 4, 5
      [0xF0, 0x80, 0xF0, 0x90, 0xF0] ++ [0xF0, 0x10, 0x20, 0x40, 0x40] ++ -- 6, 7
      [0xF0, 0x90, 0xF0, 0x90, 0xF0] ++ [0xF0, 0x90, 0xF0, 0x10, 0xF0] ++ -- 8, 9
      [0xF0, 0x90, 0xF0, 0x90, 0x90] ++ [0xE0, 0x90, 0xE0, 0x90, 0xE0] ++ -- A, B
      [0xF0, 0x80, 0x80, 0x80, 0xF0] ++ [0xE0, 0x90, 0x90, 0x90, 0xE0] ++ -- C, D
      [0xF0, 0x80, 0xF0, 0x80, 0xF0] ++ [0xF0, 0x80, 0xF0, 0x80, 0x80])   -- E, F

/-- How a program comes to run from construction: a load, then a batch, then the third step runs the program's first
two bytes as the first instruction, fetched at 0x200, in a core otherwise as construction left it (R281, R286, R288; that
a load resets and changes nothing else is the spec's own choice, D20). That the calls wait in a list is the model's choice
(logs 5, 6, 7). -/
def Obligations.FirstInstructionAfterLoad : Prop :=
  ∀ (cfg : Config) (fb0 : Framebuffer) (b0 b1 : Byte) (rest : List Byte) (n : Nat) (i : Instr),
    rest.length ≤ 3582 → decode [b0, b1] = .ok (i, []) →
    ∃ s1 s2 s3,
      step ((State.construct cfg fb0).setInbox [.loadProgram (b0 :: b1 :: rest), .runCycleBatch (n + 1)]) = .next s1 ∧
      step s1 = .next s2 ∧ s2.pc = 0x200 ∧ Cycling s2 n ∧ s2.reply = some .loaded ∧
      Frame [] [.memory, .ready, .batch, .reply] (State.construct cfg fb0) s2 ∧
      step s2 = exec i s3 ∧ s3.pc = 0x202 ∧ s3.batch = some n ∧ Frame [] [.pc, .batch] s2 s3

/-! ### Control transfer and skips -/

/-- 1nnn sets PC to nnn and changes nothing else (R131). -/
def Obligations.JumpSetsPc : Prop :=
  ∀ (nnn : Word) (s : State), ∃ t, exec (.jp nnn) s = .next t ∧ t.pc = nnn ∧ Frame [] [.pc] s t

/-- 2nnn with room on the stack pushes PC, which is A + 2, and sets PC to nnn; with the stack full it halts the core
and leaves the stack alone. The bound and the fault are the spec's own choice (D3). -/
def Obligations.CallPushesOrOverflows : Prop :=
  (∀ (nnn : Word) (s : State), s.stack.length < s.cfg.stackDepth →
    ∃ t, exec (.call nnn) s = .next t ∧ t.stack = s.pc :: s.stack ∧ t.pc = nnn ∧ Frame [] [.stack, .pc] s t) ∧
  (∀ (nnn : Word) (s : State), s.cfg.stackDepth ≤ s.stack.length →
    ∃ t, exec (.call nnn) s = .next t ∧ HaltsWith (faultOf (.call nnn) .stackOverflow none s) s t)

/-- 00EE pops the most recent return address into PC; on an empty stack it halts the core. The fault is the spec's own
choice (D4). -/
def Obligations.ReturnPopsOrUnderflows : Prop :=
  (∀ (s : State) (top : Word) (rest : List Word), s.stack = top :: rest →
    ∃ t, exec .ret s = .next t ∧ t.pc = top ∧ t.stack = rest ∧ Frame [] [.stack, .pc] s t) ∧
  (∀ s : State, s.stack = [] →
    ∃ t, exec .ret s = .next t ∧ HaltsWith (faultOf .ret .stackUnderflow none s) s t)

/-- A 2nnn that succeeds, then a 00EE with the stack as the call left it, comes back to the address after the 2nnn with
the stack as it was before the call (R130, R132; the vector S2). -/
def Obligations.ReturnUndoesCall : Prop :=
  ∀ (nnn : Word) (s t r : State), s.stack.length < s.cfg.stackDepth → exec (.call nnn) s = .next t →
    r.stack = t.stack → ∃ u, exec .ret r = .next u ∧ u.pc = s.pc ∧ u.stack = s.stack

/-- 3xkk and 4xkk add 2 to PC, modulo 65536, when Vx equals, or differs from, kk; they change nothing else (R133,
R134). That PC is reduced modulo 65536 is the spec's own choice (D24). -/
def Obligations.SkipsOnImmediate : Prop :=
  ∀ (x : RegNum) (kk : Byte) (s : State),
    (∃ t, exec (.seImm x kk) s = .next t ∧
      t.pc.toNat = (if s.reg x = kk then (s.pc.toNat + 2) % 65536 else s.pc.toNat) ∧ Frame [] [.pc] s t) ∧
    (∃ t, exec (.sneImm x kk) s = .next t ∧
      t.pc.toNat = (if s.reg x = kk then s.pc.toNat else (s.pc.toNat + 2) % 65536) ∧ Frame [] [.pc] s t)

/-- 5xy0 and 9xy0 add 2 to PC, modulo 65536, when Vx equals, or differs from, Vy; they change nothing else (R135,
R136). That PC is reduced modulo 65536 is the spec's own choice (D24). -/
def Obligations.SkipsOnRegisters : Prop :=
  ∀ (x y : RegNum) (s : State),
    (∃ t, exec (.seReg x y) s = .next t ∧
      t.pc.toNat = (if s.reg x = s.reg y then (s.pc.toNat + 2) % 65536 else s.pc.toNat) ∧ Frame [] [.pc] s t) ∧
    (∃ t, exec (.sneReg x y) s = .next t ∧
      t.pc.toNat = (if s.reg x = s.reg y then s.pc.toNat else (s.pc.toNat + 2) % 65536) ∧ Frame [] [.pc] s t)

/-- Bnnn sets PC to nnn + V0 modulo 65536, not masked to 12 bits, and changes nothing else (R137). That PC is reduced
modulo 65536 is the spec's own choice (D24). -/
def Obligations.JumpPlusV0 : Prop :=
  ∀ (nnn : Word) (s : State), ∃ t, exec (.jpV0 nnn) s = .next t ∧
    t.pc.toNat = (nnn.toNat + (s.reg 0).toNat) % 65536 ∧
    Frame [] [.pc] s t

/-! ### Loads, arithmetic and logic -/

/-- 6xkk and 8xy0 put kk, or Vy, into Vx and change nothing else (R150, R152). -/
def Obligations.LoadImmediateAndMove : Prop :=
  (∀ (x : RegNum) (kk : Byte) (s : State), ∃ t, exec (.ldImm x kk) s = .next t ∧ t.reg x = kk ∧ Frame [x] [] s t) ∧
  (∀ (x y : RegNum) (s : State), ∃ t, exec (.ldReg x y) s = .next t ∧ t.reg x = s.reg y ∧ Frame [x] [] s t)

/-- 7xkk adds kk to Vx modulo 256 and changes nothing else, VF included unless x = 15 (R151). -/
def Obligations.AddImmediateWraps : Prop :=
  ∀ (x : RegNum) (kk : Byte) (s : State), ∃ t, exec (.addImm x kk) s = .next t ∧
    (t.reg x).toNat = ((s.reg x).toNat + kk.toNat) % 256 ∧ Frame [x] [] s t

/-- 8xy1, 8xy2 and 8xy3 put the bitwise or, and, exclusive or of Vx and Vy into Vx, bit by bit, and change nothing
else (R153, R154, R155). -/
def Obligations.BitwiseOperations : Prop :=
  ∀ (x y : RegNum) (s : State),
    (∃ t, exec (.orReg x y) s = .next t ∧
      (∀ b, (t.reg x).getLsbD b = ((s.reg x).getLsbD b || (s.reg y).getLsbD b)) ∧ Frame [x] [] s t) ∧
    (∃ t, exec (.andReg x y) s = .next t ∧
      (∀ b, (t.reg x).getLsbD b = ((s.reg x).getLsbD b && (s.reg y).getLsbD b)) ∧ Frame [x] [] s t) ∧
    (∃ t, exec (.xorReg x y) s = .next t ∧
      (∀ b, (t.reg x).getLsbD b = ((s.reg x).getLsbD b != (s.reg y).getLsbD b)) ∧ Frame [x] [] s t)

/-- 8xy4 puts Vx + Vy modulo 256 into Vx, both as they were before, and the carry into VF unless x = 15, where VF holds
the sum; nothing else changes. The order that decides x = 15 is the spec's own reading (D17). -/
def Obligations.AddSetsCarry : Prop :=
  ∀ (x y : RegNum) (s : State), ∃ t, exec (.addReg x y) s = .next t ∧
    (t.reg x).toNat = ((s.reg x).toNat + (s.reg y).toNat) % 256 ∧
    (x ≠ vf → t.reg vf = if (s.reg x).toNat + (s.reg y).toNat > 255 then 1 else 0) ∧ Frame [x, vf] [] s t

/-- 8xy5 by R157's cases, with a, b, f the old Vx, Vy, VF: the comparison is strict, and the subtraction reads the new
VF where x or y is 15. That order is the spec's own reading (D17). Nothing else changes. -/
def Obligations.SubtractByCases : Prop :=
  ∀ (x y : RegNum) (s : State) (a b f : Byte), a = s.reg x → b = s.reg y → f = s.reg vf →
    ∃ t, exec (.subReg x y) s = .next t ∧ Frame [x, vf] [] s t ∧
      (x ≠ vf → y ≠ vf → t.reg vf = (if a.toNat > b.toNat then 1 else 0) ∧
        (t.reg x).toNat = (a.toNat + 256 - b.toNat) % 256) ∧
      (x ≠ vf → y = vf → t.reg vf = (if a.toNat > f.toNat then 1 else 0) ∧
        (t.reg x).toNat = (a.toNat + 256 - (t.reg vf).toNat) % 256) ∧
      (x = vf → y ≠ vf → (t.reg vf).toNat = ((if f.toNat > b.toNat then 1 else 0) + 256 - b.toNat) % 256) ∧
      (x = vf → y = vf → t.reg vf = 0)

/-- 8xy7 by R159's cases, with a, b, f the old Vx, Vy, VF. The order that decides x = 15 and y = 15 is the spec's own
reading (D17). Nothing else changes. -/
def Obligations.ReverseSubtractByCases : Prop :=
  ∀ (x y : RegNum) (s : State) (a b f : Byte), a = s.reg x → b = s.reg y → f = s.reg vf →
    ∃ t, exec (.subnReg x y) s = .next t ∧ Frame [x, vf] [] s t ∧
      (x ≠ vf → y ≠ vf → t.reg vf = (if b.toNat > a.toNat then 1 else 0) ∧
        (t.reg x).toNat = (b.toNat + 256 - a.toNat) % 256) ∧
      (x ≠ vf → y = vf → t.reg vf = (if f.toNat > a.toNat then 1 else 0) ∧
        (t.reg x).toNat = ((t.reg vf).toNat + 256 - a.toNat) % 256) ∧
      (x = vf → y ≠ vf → (t.reg vf).toNat = (b.toNat + 256 - (if b.toNat > f.toNat then 1 else 0)) % 256) ∧
      (x = vf → y = vf → t.reg vf = 0)

/-- 8xy6 and 8xyE shift Vx by one bit and put the bit shifted out, as 0 or 1, into VF; with x = 15 VF ends 0 after
8xy6 and 2 or 0 after 8xyE. Vy is not read: every y gives the same. Nothing else changes. The order that decides x = 15
is the spec's own reading (D17; the normalised flag, C2). -/
def Obligations.ShiftsByCases : Prop :=
  ∀ (x y : RegNum) (s : State),
    (∃ t, exec (.shr x y) s = .next t ∧ Frame [x, vf] [] s t ∧
      (x ≠ vf → (t.reg vf).toNat = (s.reg x).toNat % 2 ∧ (t.reg x).toNat = (s.reg x).toNat / 2) ∧
      (x = vf → t.reg vf = 0)) ∧
    (∃ t, exec (.shl x y) s = .next t ∧ Frame [x, vf] [] s t ∧
      (x ≠ vf → t.reg vf = (if (s.reg x).toNat ≥ 0x80 then 1 else 0) ∧
        (t.reg x).toNat = (s.reg x).toNat * 2 % 256) ∧
      (x = vf → t.reg vf = if (s.reg vf).toNat ≥ 0x80 then 2 else 0))

/-- Cxkk puts the drawn byte and kk into Vx and draws once; nothing else changes, and no bit that is clear in kk is set.
The drawn byte is a free value, the same reading as the spec's own choice of an unconstrained draw (D11, log 1). -/
def Obligations.RandomByteIsMasked : Prop :=
  ∀ (x : RegNum) (kk : Byte) (s : State), ∃ (t : State) (r : Byte), exec (.rnd x kk) s = .next t ∧
    r = Config.randomByte s.draws ∧ t.reg x = r &&& kk ∧ t.reg x &&& ~~~kk = 0 ∧ t.draws = s.draws + 1 ∧
    Frame [x] [.draws] s t

/-! ### Index register and memory -/

/-- Annn puts nnn into I, and Fx29 five times the full byte Vx; nothing else changes (R180, R182). -/
def Obligations.IndexLoads : Prop :=
  (∀ (nnn : Word) (s : State), ∃ t, exec (.ldI nnn) s = .next t ∧ t.i = nnn ∧ Frame [] [.index] s t) ∧
  (∀ (x : RegNum) (s : State), ∃ t, exec (.ldF x) s = .next t ∧ t.i.toNat = (s.reg x).toNat * 5 ∧
    Frame [] [.index] s t)

/-- Fx1E adds Vx to I modulo 65536, not modulo 4096, and changes nothing else, VF included (R181). The modulus is the
spec's own choice (D24). -/
def Obligations.AddToIndexWraps : Prop :=
  ∀ (x : RegNum) (s : State), ∃ t, exec (.addI x) s = .next t ∧
    t.i.toNat = (s.i.toNat + (s.reg x).toNat) % 65536 ∧ Frame [] [.index] s t

/-- Fx33 in range stores the hundreds, tens and units of Vx at I, I + 1, I + 2; every other byte reads as before and
nothing else changes (R183). Memory is canonical, which every step keeps. That the in-range condition is checked first
is the spec's own choice (D2). -/
def Obligations.DecimalDigitsStored : Prop :=
  ∀ (x : RegNum) (s : State), s.i.toNat + 2 < 4096 → s.MemoryCanonical →
    ∃ t, exec (.ldB x) s = .next t ∧
      (t.readByte (s.effectiveAddress 0)).toNat = (s.reg x).toNat / 100 ∧
      (t.readByte (s.effectiveAddress 1)).toNat = (s.reg x).toNat % 100 / 10 ∧
      (t.readByte (s.effectiveAddress 2)).toNat = (s.reg x).toNat % 10 ∧
      (∀ a, a < s.effectiveAddress 0 ∨ s.effectiveAddress 3 ≤ a → t.readByte a = s.readByte a) ∧
      Frame [] [.memory] s t

/-- Fx55 in range stores V0..Vx at I..I + x; every other byte reads as before and nothing else changes, I included
(R184). Memory is canonical, which every step keeps. That the in-range condition is checked first is the spec's own
choice (D2). -/
def Obligations.RegistersStored : Prop :=
  ∀ (x : RegNum) (s : State), s.i.toNat + x.val < 4096 → s.MemoryCanonical →
    ∃ t, exec (.storeRegs x) s = .next t ∧
      (∀ r : RegNum, r ≤ x → t.readByte (s.effectiveAddress r.val) = s.reg r) ∧
      (∀ a, a < s.effectiveAddress 0 ∨ s.effectiveAddress (x.val + 1) ≤ a → t.readByte a = s.readByte a) ∧
      Frame [] [.memory] s t

/-- Fx65 in range loads V0..Vx from I..I + x and leaves the registers above Vx, and everything else, alone (R185). That
the in-range condition is checked first is the spec's own choice (D2). -/
def Obligations.RegistersLoaded : Prop :=
  ∀ (x : RegNum) (s : State), s.i.toNat + x.val < 4096 →
    ∃ t, exec (.loadRegs x) s = .next t ∧
      (∀ r : RegNum, t.reg r = if r ≤ x then s.readByte (s.effectiveAddress r.val) else s.reg r) ∧
      (∀ p : Part, p.Same s t)

/-- A memory instruction one of whose addresses lies outside memory halts the core with the lowest such address in the
record, and does nothing else; Dxyn with n = 0 has no address. The spec's own choice (D2). -/
def Obligations.MemoryInstructionsHaltOutOfRange : Prop :=
  ∀ (i : Instr) (len : Nat) (s : State),
    ((∃ x, i = .ldB x ∧ len = 3) ∨ (∃ x : RegNum, i = .storeRegs x ∧ len = x.val + 1) ∨
      (∃ x : RegNum, i = .loadRegs x ∧ len = x.val + 1) ∨ (∃ x y, i = .drw x y len ∧ 0 < len)) →
    4096 < s.i.toNat + len →
    ∃ t, exec i s = .next t ∧
      HaltsWith (faultOf i .addressOutOfRange (some (if s.i.toNat < 4096 then 4096 else s.i.toNat)) s) s t

/-- What Fx55 stored, Fx65 loads back: after a store in range, a load of as many registers through the same I and from
the same memory gives V0..Vx as they were, whatever the registers hold meanwhile (R184, R185). -/
def Obligations.LoadUndoesStore : Prop :=
  ∀ (x : RegNum) (s t r : State), s.i.toNat + x.val < 4096 → s.MemoryCanonical → exec (.storeRegs x) s = .next t →
    r.i = s.i → (∀ a, r.readByte a = t.readByte a) →
    ∃ u, exec (.loadRegs x) r = .next u ∧ ∀ q : RegNum, q ≤ x → u.reg q = s.reg q

/-! ### Display -/

/-- 00E0 turns every pixel off and changes nothing else (R200). -/
def Obligations.ClearTurnsPixelsOff : Prop :=
  ∀ s : State, ∃ t, exec .cls s = .next t ∧ (∀ px py, t.pixel px py = false) ∧ Frame [] [.display] s t

/-- Dxyn in range toggles exactly the pixels its sprite's 1 bits reach and sets VF to 1 exactly when one of them was on,
else to 0; nothing else changes (R201). Operands read first, the bit order, the bound check and the wrap are the
spec's own choice (D2, D12, D13, D30). -/
def Obligations.DrawTogglesSpritePixels : Prop :=
  ∀ (x y : RegNum) (n : Nat) (s : State), n < 16 → n = 0 ∨ s.i.toNat + n ≤ 4096 →
    ∃ t, exec (.drw x y n) s = .next t ∧
      (∀ px py, t.pixel px py ≠ s.pixel px py ↔ SpriteCovers s x y n px py) ∧
      (t.reg vf = 0 ∨ t.reg vf = 1) ∧
      (t.reg vf = 1 ↔ ∃ px py, SpriteCovers s x y n px py ∧ s.pixel px py = true) ∧
      Frame [vf] [.display] s t

/-- Drawing a sprite a second time at the same origin (whichever registers hold it), with I and memory the same and the
display as the first draw left it, restores every pixel, and VF ends 1 exactly when some pixel the sprite reaches was off
before the first draw (R204, which the spec derives from R201). Operands read first, the bit order, the bound check and
the wrap are the spec's own choice (D2, D12, D13, D30). -/
def Obligations.DrawTwiceRestoresDisplay : Prop :=
  ∀ (x y x' y' : RegNum) (n : Nat) (s t r : State), n < 16 → n = 0 ∨ s.i.toNat + n ≤ 4096 →
    exec (.drw x y n) s = .next t → (∀ px py, r.pixel px py = t.pixel px py) → r.i = s.i →
    (∀ a, r.readByte a = s.readByte a) → r.reg x' = s.reg x → r.reg y' = s.reg y →
    ∃ u, exec (.drw x' y' n) r = .next u ∧ (∀ px py, u.pixel px py = s.pixel px py) ∧
      (u.reg vf = 0 ∨ u.reg vf = 1) ∧
      (u.reg vf = 1 ↔ ∃ px py, SpriteCovers s x y n px py ∧ s.pixel px py = false)

/-! ### Keys and timers -/

/-- Ex9E and ExA1 with a key code in Vx add 2 to PC, modulo 65536, when that key is, or is not, pressed; they change
nothing else (R220, R221). With Vx above 15 they halt the core, which is the spec's own choice (D8), as is
the modulus (D24). -/
def Obligations.KeySkips : Prop :=
  (∀ (x : RegNum) (k : KeyCode) (s : State), (s.reg x).toNat = k.val →
    (∃ t, exec (.skp x) s = .next t ∧
      t.pc.toNat = (if s.isPressed k then (s.pc.toNat + 2) % 65536 else s.pc.toNat) ∧ Frame [] [.pc] s t) ∧
    (∃ t, exec (.sknp x) s = .next t ∧
      t.pc.toNat = (if s.isPressed k then s.pc.toNat else (s.pc.toNat + 2) % 65536) ∧ Frame [] [.pc] s t)) ∧
  (∀ (x : RegNum) (s : State), 15 < (s.reg x).toNat →
    (∃ t, exec (.skp x) s = .next t ∧ HaltsWith (faultOf (.skp x) .keyOutOfRange none s) s t) ∧
    (∃ t, exec (.sknp x) s = .next t ∧ HaltsWith (faultOf (.sknp x) .keyOutOfRange none s) s t))

/-- Fx07 puts DT into Vx, Fx15 Vx into DT, Fx18 Vx into ST; nothing else changes (R222, R224, R225). -/
def Obligations.TimerTransfers : Prop :=
  ∀ (x : RegNum) (s : State),
    (∃ t, exec (.ldVxDt x) s = .next t ∧ t.reg x = s.dt ∧ Frame [x] [] s t) ∧
    (∃ t, exec (.ldDtVx x) s = .next t ∧ t.dt = s.reg x ∧ Frame [] [.delayTimer] s t) ∧
    (∃ t, exec (.ldStVx x) s = .next t ∧ t.st = s.reg x ∧ Frame [] [.soundTimer] s t)

/-- Fx0A completes at once: the core waits for a key into Vx, the callback is armed, and nothing else changes, Vx and
the key levels included (R223; that a held key does not end the wait is the spec's own choice, D10). -/
def Obligations.WaitForKeyBegins : Prop :=
  ∀ (x : RegNum) (s : State), ∃ t, exec (.ldVxK x) s = .next t ∧ t.wait = some x ∧ t.callbackArmed = true ∧
    Frame [] [.wait, .callback] s t

/-! ### The whole machine -/

/-- After construction, with any parameters and display, the invariant holds and memory is canonical. -/
def Obligations.ConstructionMeetsInvariant : Prop :=
  ∀ (cfg : Config) (fb0 : Framebuffer), (State.construct cfg fb0).Inv ∧ (State.construct cfg fb0).MemoryCanonical

/-- Every step keeps memory in its canonical form, from every state that has it. -/
def Obligations.StepKeepsMemoryCanonical : Prop :=
  ∀ s t : State, s.MemoryCanonical → step s = .next t → t.MemoryCanonical

/-- Every step keeps the invariant, from every state that has it: the stack's bound (R27), PC and the return addresses
far below their wrap (R26), the callback armed exactly while the core waits (R35, R263), batches only in a loaded core
that is not halted. -/
def Obligations.StepKeepsInvariant : Prop :=
  ∀ s t : State, s.Inv → step s = .next t → t.Inv

/-- A halt is permanent: every step of a halted core keeps the record and changes nothing but key levels and the
model's own bookkeeping of host calls. The spec's own choice (D5). Over a halted core with a batch under way, which no run
reaches, it rests on the model's choice (log 12). -/
def Obligations.HaltIsPermanent : Prop :=
  ∀ s t : State, s.halt ≠ none → step s = .next t →
    t.halt = s.halt ∧ Frame [] [.keys, .inbox, .batch, .reply, .toneCall] s t

/-- Faults are precise: an instruction that halts the core does nothing else, and the record holds its address and
opcode, and an address exactly when the kind is AddressOutOfRange (R243, R245, R247; the spec's own choice, D2, D5, D6). -/
def Obligations.FaultsArePrecise : Prop :=
  ∀ (i : Instr) (s t : State) (r : FaultRecord), exec i s = .next t → s.halt = none → t.halt = some r →
    HaltsWith r s t ∧ r.pc + 2 = s.pc ∧ r.op = some (encode i) ∧ (r.addr ≠ none ↔ r.kind = .addressOutOfRange)

/-- Only 00EE, 2nnn, Dxyn, Fx33, Fx55, Fx65, Ex9E and ExA1 can halt the core; every other instruction completes, Halt
unchanged, in every state and for every operand value (R242, which the spec derives). -/
def Obligations.OnlyEightInstructionsCanFault : Prop :=
  ∀ (i : Instr) (s : State),
    (∀ nnn, i ≠ .call nnn) → i ≠ .ret → (∀ x y n, i ≠ .drw x y n) → (∀ x, i ≠ .ldB x) → (∀ x, i ≠ .storeRegs x) →
    (∀ x, i ≠ .loadRegs x) → (∀ x, i ≠ .skp x) → (∀ x, i ≠ .sknp x) → ∃ t, exec i s = .next t ∧ t.halt = s.halt

/-- Which instructions change which part of the machine: I only by Annn, Fx1E, Fx29; the stack only by 2nnn, 00EE; DT
only by Fx15, ST only by Fx18; memory only by Fx33, Fx55; the display only by 00E0, Dxyn; Wait only by Fx0A; and no
instruction changes Ready, the key levels, the tone device or the parameters (R23, R27, R28, R29, R32, R51, R252). -/
def Obligations.PartsChangedOnlyByTheirInstructions : Prop :=
  ∀ (i : Instr) (s t : State), exec i s = .next t →
    (t.i ≠ s.i → (∃ nnn, i = .ldI nnn) ∨ (∃ x, i = .addI x) ∨ (∃ x, i = .ldF x)) ∧
    (t.stack ≠ s.stack → (∃ nnn, i = .call nnn) ∨ i = .ret) ∧
    (t.dt ≠ s.dt → ∃ x, i = .ldDtVx x) ∧
    (t.st ≠ s.st → ∃ x, i = .ldStVx x) ∧
    ((∃ a, t.readByte a ≠ s.readByte a) → (∃ x, i = .ldB x) ∨ (∃ x, i = .storeRegs x)) ∧
    ((∃ px py, t.pixel px py ≠ s.pixel px py) → i = .cls ∨ ∃ x y n, i = .drw x y n) ∧
    (t.wait ≠ s.wait → ∃ x, i = .ldVxK x) ∧
    t.ready = s.ready ∧ t.keys = s.keys ∧ t.toneOn = s.toneOn ∧ t.cfg = s.cfg

/-- Placing an opcode word is what it says: from a state with canonical memory the next step runs exactly the
instruction the decoder reads from that word, with PC two above where the word was stored, high byte first: at the PC of
the given state, or at 0x200 where two bytes at that PC do not lie in memory. Every other byte reads as before, the core
is ready, not halted, not waiting, with the callback disarmed, one iteration fewer is left of the batch (none of a batch
that had none left or was not under way), and all else is as given. How a program is placed is the model's choice
(log 7). -/
def Obligations.PlacedWordIsExecuted : Prop :=
  ∀ (s : State) (w : Nat) (i : Instr) (p : Nat), w < 65536 → s.MemoryCanonical → decodeTableWord 16 w = some i →
    p = (if s.pc.toNat + 1 < 4096 then s.pc.toNat else 0x200) →
    ∃ u, step (s.withFetchWord 16 w) = exec i u ∧ u.pc.toNat = p + 2 ∧
      (u.readByte p).toNat = w / 256 ∧ (u.readByte (p + 1)).toNat = w % 256 ∧
      (∀ a, a ≠ p → a ≠ p + 1 → u.readByte a = s.readByte a) ∧
      u.ready = true ∧ u.halt = none ∧ u.wait = none ∧ u.callbackArmed = false ∧
      u.batch = some (s.batch.getD 0 - 1) ∧
      Frame [] [.pc, .memory, .ready, .halt, .wait, .callback, .batch] s u
end

