-- ==== Sys2Proof/Laws/State.lean ====
section
/-! SUPPORT. What each field reads as after each update, so that no later proof unfolds a record update. -/

namespace Sys2Proof.Machine

/-! ### The fixed sizes as numerals -/

@[simp] theorem memSize_eq : memSize = 4096 := rfl
@[simp] theorem maxProg_eq : maxProg = 3584 := rfl
@[simp] theorem progBase_eq : progBase = 0x200 := rfl
@[simp] theorem fontLen_eq : fontLen = 80 := rfl
@[simp] theorem toneHz_eq : toneHz = 440 := rfl

/-! ### After `setRegs` -/

@[simp] theorem State.setRegs_v (s : State) (v : Vector Byte 16) : (s.setRegs v).v = v := rfl
@[simp] theorem State.setRegs_i (s : State) (v : Vector Byte 16) : (s.setRegs v).i = s.i := rfl
@[simp] theorem State.setRegs_pc (s : State) (v : Vector Byte 16) : (s.setRegs v).pc = s.pc := rfl
@[simp] theorem State.setRegs_stack (s : State) (v : Vector Byte 16) : (s.setRegs v).stack = s.stack := rfl
@[simp] theorem State.setRegs_dt (s : State) (v : Vector Byte 16) : (s.setRegs v).dt = s.dt := rfl
@[simp] theorem State.setRegs_st (s : State) (v : Vector Byte 16) : (s.setRegs v).st = s.st := rfl
@[simp] theorem State.setRegs_mem (s : State) (v : Vector Byte 16) : (s.setRegs v).mem = s.mem := rfl
@[simp] theorem State.setRegs_wait (s : State) (v : Vector Byte 16) : (s.setRegs v).wait = s.wait := rfl
@[simp] theorem State.setRegs_ready (s : State) (v : Vector Byte 16) : (s.setRegs v).ready = s.ready := rfl
@[simp] theorem State.setRegs_halt (s : State) (v : Vector Byte 16) : (s.setRegs v).halt = s.halt := rfl
@[simp] theorem State.setRegs_fb (s : State) (v : Vector Byte 16) : (s.setRegs v).fb = s.fb := rfl
@[simp] theorem State.setRegs_keys (s : State) (v : Vector Byte 16) : (s.setRegs v).keys = s.keys := rfl
@[simp] theorem State.setRegs_callbackArmed (s : State) (v : Vector Byte 16) : (s.setRegs v).callbackArmed = s.callbackArmed := rfl
@[simp] theorem State.setRegs_toneOn (s : State) (v : Vector Byte 16) : (s.setRegs v).toneOn = s.toneOn := rfl
@[simp] theorem State.setRegs_cfg (s : State) (v : Vector Byte 16) : (s.setRegs v).cfg = s.cfg := rfl
@[simp] theorem State.setRegs_inbox (s : State) (v : Vector Byte 16) : (s.setRegs v).inbox = s.inbox := rfl
@[simp] theorem State.setRegs_batch (s : State) (v : Vector Byte 16) : (s.setRegs v).batch = s.batch := rfl
@[simp] theorem State.setRegs_reply (s : State) (v : Vector Byte 16) : (s.setRegs v).reply = s.reply := rfl
@[simp] theorem State.setRegs_toneCall (s : State) (v : Vector Byte 16) : (s.setRegs v).toneCall = s.toneCall := rfl
@[simp] theorem State.setRegs_draws (s : State) (v : Vector Byte 16) : (s.setRegs v).draws = s.draws := rfl
@[simp] theorem State.setRegs_readByte (s : State) (v : Vector Byte 16) (a : Nat) : (s.setRegs v).readByte a = s.readByte a := rfl
@[simp] theorem State.setRegs_pixel (s : State) (v : Vector Byte 16) (px : Fin 64) (py : Fin 32) : (s.setRegs v).pixel px py = s.pixel px py := rfl
@[simp] theorem State.setRegs_isPressed (s : State) (v : Vector Byte 16) (k' : KeyCode) : (s.setRegs v).isPressed k' = s.isPressed k' := rfl

/-! ### After `setI` -/

@[simp] theorem State.setI_v (s : State) (w : Word) : (s.setI w).v = s.v := rfl
@[simp] theorem State.setI_i (s : State) (w : Word) : (s.setI w).i = w := rfl
@[simp] theorem State.setI_pc (s : State) (w : Word) : (s.setI w).pc = s.pc := rfl
@[simp] theorem State.setI_stack (s : State) (w : Word) : (s.setI w).stack = s.stack := rfl
@[simp] theorem State.setI_dt (s : State) (w : Word) : (s.setI w).dt = s.dt := rfl
@[simp] theorem State.setI_st (s : State) (w : Word) : (s.setI w).st = s.st := rfl
@[simp] theorem State.setI_mem (s : State) (w : Word) : (s.setI w).mem = s.mem := rfl
@[simp] theorem State.setI_wait (s : State) (w : Word) : (s.setI w).wait = s.wait := rfl
@[simp] theorem State.setI_ready (s : State) (w : Word) : (s.setI w).ready = s.ready := rfl
@[simp] theorem State.setI_halt (s : State) (w : Word) : (s.setI w).halt = s.halt := rfl
@[simp] theorem State.setI_fb (s : State) (w : Word) : (s.setI w).fb = s.fb := rfl
@[simp] theorem State.setI_keys (s : State) (w : Word) : (s.setI w).keys = s.keys := rfl
@[simp] theorem State.setI_callbackArmed (s : State) (w : Word) : (s.setI w).callbackArmed = s.callbackArmed := rfl
@[simp] theorem State.setI_toneOn (s : State) (w : Word) : (s.setI w).toneOn = s.toneOn := rfl
@[simp] theorem State.setI_cfg (s : State) (w : Word) : (s.setI w).cfg = s.cfg := rfl
@[simp] theorem State.setI_inbox (s : State) (w : Word) : (s.setI w).inbox = s.inbox := rfl
@[simp] theorem State.setI_batch (s : State) (w : Word) : (s.setI w).batch = s.batch := rfl
@[simp] theorem State.setI_reply (s : State) (w : Word) : (s.setI w).reply = s.reply := rfl
@[simp] theorem State.setI_toneCall (s : State) (w : Word) : (s.setI w).toneCall = s.toneCall := rfl
@[simp] theorem State.setI_draws (s : State) (w : Word) : (s.setI w).draws = s.draws := rfl
@[simp] theorem State.setI_reg (s : State) (w : Word) (x : RegNum) : (s.setI w).reg x = s.reg x := rfl
@[simp] theorem State.setI_readByte (s : State) (w : Word) (a : Nat) : (s.setI w).readByte a = s.readByte a := rfl
@[simp] theorem State.setI_pixel (s : State) (w : Word) (px : Fin 64) (py : Fin 32) : (s.setI w).pixel px py = s.pixel px py := rfl
@[simp] theorem State.setI_isPressed (s : State) (w : Word) (k' : KeyCode) : (s.setI w).isPressed k' = s.isPressed k' := rfl

/-! ### After `setPc` -/

@[simp] theorem State.setPc_v (s : State) (w : Word) : (s.setPc w).v = s.v := rfl
@[simp] theorem State.setPc_i (s : State) (w : Word) : (s.setPc w).i = s.i := rfl
@[simp] theorem State.setPc_pc (s : State) (w : Word) : (s.setPc w).pc = w := rfl
@[simp] theorem State.setPc_stack (s : State) (w : Word) : (s.setPc w).stack = s.stack := rfl
@[simp] theorem State.setPc_dt (s : State) (w : Word) : (s.setPc w).dt = s.dt := rfl
@[simp] theorem State.setPc_st (s : State) (w : Word) : (s.setPc w).st = s.st := rfl
@[simp] theorem State.setPc_mem (s : State) (w : Word) : (s.setPc w).mem = s.mem := rfl
@[simp] theorem State.setPc_wait (s : State) (w : Word) : (s.setPc w).wait = s.wait := rfl
@[simp] theorem State.setPc_ready (s : State) (w : Word) : (s.setPc w).ready = s.ready := rfl
@[simp] theorem State.setPc_halt (s : State) (w : Word) : (s.setPc w).halt = s.halt := rfl
@[simp] theorem State.setPc_fb (s : State) (w : Word) : (s.setPc w).fb = s.fb := rfl
@[simp] theorem State.setPc_keys (s : State) (w : Word) : (s.setPc w).keys = s.keys := rfl
@[simp] theorem State.setPc_callbackArmed (s : State) (w : Word) : (s.setPc w).callbackArmed = s.callbackArmed := rfl
@[simp] theorem State.setPc_toneOn (s : State) (w : Word) : (s.setPc w).toneOn = s.toneOn := rfl
@[simp] theorem State.setPc_cfg (s : State) (w : Word) : (s.setPc w).cfg = s.cfg := rfl
@[simp] theorem State.setPc_inbox (s : State) (w : Word) : (s.setPc w).inbox = s.inbox := rfl
@[simp] theorem State.setPc_batch (s : State) (w : Word) : (s.setPc w).batch = s.batch := rfl
@[simp] theorem State.setPc_reply (s : State) (w : Word) : (s.setPc w).reply = s.reply := rfl
@[simp] theorem State.setPc_toneCall (s : State) (w : Word) : (s.setPc w).toneCall = s.toneCall := rfl
@[simp] theorem State.setPc_draws (s : State) (w : Word) : (s.setPc w).draws = s.draws := rfl
@[simp] theorem State.setPc_reg (s : State) (w : Word) (x : RegNum) : (s.setPc w).reg x = s.reg x := rfl
@[simp] theorem State.setPc_readByte (s : State) (w : Word) (a : Nat) : (s.setPc w).readByte a = s.readByte a := rfl
@[simp] theorem State.setPc_pixel (s : State) (w : Word) (px : Fin 64) (py : Fin 32) : (s.setPc w).pixel px py = s.pixel px py := rfl
@[simp] theorem State.setPc_isPressed (s : State) (w : Word) (k' : KeyCode) : (s.setPc w).isPressed k' = s.isPressed k' := rfl

/-! ### After `setStack` -/

@[simp] theorem State.setStack_v (s : State) (l : List Word) : (s.setStack l).v = s.v := rfl
@[simp] theorem State.setStack_i (s : State) (l : List Word) : (s.setStack l).i = s.i := rfl
@[simp] theorem State.setStack_pc (s : State) (l : List Word) : (s.setStack l).pc = s.pc := rfl
@[simp] theorem State.setStack_stack (s : State) (l : List Word) : (s.setStack l).stack = l := rfl
@[simp] theorem State.setStack_dt (s : State) (l : List Word) : (s.setStack l).dt = s.dt := rfl
@[simp] theorem State.setStack_st (s : State) (l : List Word) : (s.setStack l).st = s.st := rfl
@[simp] theorem State.setStack_mem (s : State) (l : List Word) : (s.setStack l).mem = s.mem := rfl
@[simp] theorem State.setStack_wait (s : State) (l : List Word) : (s.setStack l).wait = s.wait := rfl
@[simp] theorem State.setStack_ready (s : State) (l : List Word) : (s.setStack l).ready = s.ready := rfl
@[simp] theorem State.setStack_halt (s : State) (l : List Word) : (s.setStack l).halt = s.halt := rfl
@[simp] theorem State.setStack_fb (s : State) (l : List Word) : (s.setStack l).fb = s.fb := rfl
@[simp] theorem State.setStack_keys (s : State) (l : List Word) : (s.setStack l).keys = s.keys := rfl
@[simp] theorem State.setStack_callbackArmed (s : State) (l : List Word) : (s.setStack l).callbackArmed = s.callbackArmed := rfl
@[simp] theorem State.setStack_toneOn (s : State) (l : List Word) : (s.setStack l).toneOn = s.toneOn := rfl
@[simp] theorem State.setStack_cfg (s : State) (l : List Word) : (s.setStack l).cfg = s.cfg := rfl
@[simp] theorem State.setStack_inbox (s : State) (l : List Word) : (s.setStack l).inbox = s.inbox := rfl
@[simp] theorem State.setStack_batch (s : State) (l : List Word) : (s.setStack l).batch = s.batch := rfl
@[simp] theorem State.setStack_reply (s : State) (l : List Word) : (s.setStack l).reply = s.reply := rfl
@[simp] theorem State.setStack_toneCall (s : State) (l : List Word) : (s.setStack l).toneCall = s.toneCall := rfl
@[simp] theorem State.setStack_draws (s : State) (l : List Word) : (s.setStack l).draws = s.draws := rfl
@[simp] theorem State.setStack_reg (s : State) (l : List Word) (x : RegNum) : (s.setStack l).reg x = s.reg x := rfl
@[simp] theorem State.setStack_readByte (s : State) (l : List Word) (a : Nat) : (s.setStack l).readByte a = s.readByte a := rfl
@[simp] theorem State.setStack_pixel (s : State) (l : List Word) (px : Fin 64) (py : Fin 32) : (s.setStack l).pixel px py = s.pixel px py := rfl
@[simp] theorem State.setStack_isPressed (s : State) (l : List Word) (k' : KeyCode) : (s.setStack l).isPressed k' = s.isPressed k' := rfl

/-! ### After `setDt` -/

@[simp] theorem State.setDt_v (s : State) (b : Byte) : (s.setDt b).v = s.v := rfl
@[simp] theorem State.setDt_i (s : State) (b : Byte) : (s.setDt b).i = s.i := rfl
@[simp] theorem State.setDt_pc (s : State) (b : Byte) : (s.setDt b).pc = s.pc := rfl
@[simp] theorem State.setDt_stack (s : State) (b : Byte) : (s.setDt b).stack = s.stack := rfl
@[simp] theorem State.setDt_dt (s : State) (b : Byte) : (s.setDt b).dt = b := rfl
@[simp] theorem State.setDt_st (s : State) (b : Byte) : (s.setDt b).st = s.st := rfl
@[simp] theorem State.setDt_mem (s : State) (b : Byte) : (s.setDt b).mem = s.mem := rfl
@[simp] theorem State.setDt_wait (s : State) (b : Byte) : (s.setDt b).wait = s.wait := rfl
@[simp] theorem State.setDt_ready (s : State) (b : Byte) : (s.setDt b).ready = s.ready := rfl
@[simp] theorem State.setDt_halt (s : State) (b : Byte) : (s.setDt b).halt = s.halt := rfl
@[simp] theorem State.setDt_fb (s : State) (b : Byte) : (s.setDt b).fb = s.fb := rfl
@[simp] theorem State.setDt_keys (s : State) (b : Byte) : (s.setDt b).keys = s.keys := rfl
@[simp] theorem State.setDt_callbackArmed (s : State) (b : Byte) : (s.setDt b).callbackArmed = s.callbackArmed := rfl
@[simp] theorem State.setDt_toneOn (s : State) (b : Byte) : (s.setDt b).toneOn = s.toneOn := rfl
@[simp] theorem State.setDt_cfg (s : State) (b : Byte) : (s.setDt b).cfg = s.cfg := rfl
@[simp] theorem State.setDt_inbox (s : State) (b : Byte) : (s.setDt b).inbox = s.inbox := rfl
@[simp] theorem State.setDt_batch (s : State) (b : Byte) : (s.setDt b).batch = s.batch := rfl
@[simp] theorem State.setDt_reply (s : State) (b : Byte) : (s.setDt b).reply = s.reply := rfl
@[simp] theorem State.setDt_toneCall (s : State) (b : Byte) : (s.setDt b).toneCall = s.toneCall := rfl
@[simp] theorem State.setDt_draws (s : State) (b : Byte) : (s.setDt b).draws = s.draws := rfl
@[simp] theorem State.setDt_reg (s : State) (b : Byte) (x : RegNum) : (s.setDt b).reg x = s.reg x := rfl
@[simp] theorem State.setDt_readByte (s : State) (b : Byte) (a : Nat) : (s.setDt b).readByte a = s.readByte a := rfl
@[simp] theorem State.setDt_pixel (s : State) (b : Byte) (px : Fin 64) (py : Fin 32) : (s.setDt b).pixel px py = s.pixel px py := rfl
@[simp] theorem State.setDt_isPressed (s : State) (b : Byte) (k' : KeyCode) : (s.setDt b).isPressed k' = s.isPressed k' := rfl

/-! ### After `setSt` -/

@[simp] theorem State.setSt_v (s : State) (b : Byte) : (s.setSt b).v = s.v := rfl
@[simp] theorem State.setSt_i (s : State) (b : Byte) : (s.setSt b).i = s.i := rfl
@[simp] theorem State.setSt_pc (s : State) (b : Byte) : (s.setSt b).pc = s.pc := rfl
@[simp] theorem State.setSt_stack (s : State) (b : Byte) : (s.setSt b).stack = s.stack := rfl
@[simp] theorem State.setSt_dt (s : State) (b : Byte) : (s.setSt b).dt = s.dt := rfl
@[simp] theorem State.setSt_st (s : State) (b : Byte) : (s.setSt b).st = b := rfl
@[simp] theorem State.setSt_mem (s : State) (b : Byte) : (s.setSt b).mem = s.mem := rfl
@[simp] theorem State.setSt_wait (s : State) (b : Byte) : (s.setSt b).wait = s.wait := rfl
@[simp] theorem State.setSt_ready (s : State) (b : Byte) : (s.setSt b).ready = s.ready := rfl
@[simp] theorem State.setSt_halt (s : State) (b : Byte) : (s.setSt b).halt = s.halt := rfl
@[simp] theorem State.setSt_fb (s : State) (b : Byte) : (s.setSt b).fb = s.fb := rfl
@[simp] theorem State.setSt_keys (s : State) (b : Byte) : (s.setSt b).keys = s.keys := rfl
@[simp] theorem State.setSt_callbackArmed (s : State) (b : Byte) : (s.setSt b).callbackArmed = s.callbackArmed := rfl
@[simp] theorem State.setSt_toneOn (s : State) (b : Byte) : (s.setSt b).toneOn = s.toneOn := rfl
@[simp] theorem State.setSt_cfg (s : State) (b : Byte) : (s.setSt b).cfg = s.cfg := rfl
@[simp] theorem State.setSt_inbox (s : State) (b : Byte) : (s.setSt b).inbox = s.inbox := rfl
@[simp] theorem State.setSt_batch (s : State) (b : Byte) : (s.setSt b).batch = s.batch := rfl
@[simp] theorem State.setSt_reply (s : State) (b : Byte) : (s.setSt b).reply = s.reply := rfl
@[simp] theorem State.setSt_toneCall (s : State) (b : Byte) : (s.setSt b).toneCall = s.toneCall := rfl
@[simp] theorem State.setSt_draws (s : State) (b : Byte) : (s.setSt b).draws = s.draws := rfl
@[simp] theorem State.setSt_reg (s : State) (b : Byte) (x : RegNum) : (s.setSt b).reg x = s.reg x := rfl
@[simp] theorem State.setSt_readByte (s : State) (b : Byte) (a : Nat) : (s.setSt b).readByte a = s.readByte a := rfl
@[simp] theorem State.setSt_pixel (s : State) (b : Byte) (px : Fin 64) (py : Fin 32) : (s.setSt b).pixel px py = s.pixel px py := rfl
@[simp] theorem State.setSt_isPressed (s : State) (b : Byte) (k' : KeyCode) : (s.setSt b).isPressed k' = s.isPressed k' := rfl

/-! ### After `setMem` -/

@[simp] theorem State.setMem_v (s : State) (m : Memory) : (s.setMem m).v = s.v := rfl
@[simp] theorem State.setMem_i (s : State) (m : Memory) : (s.setMem m).i = s.i := rfl
@[simp] theorem State.setMem_pc (s : State) (m : Memory) : (s.setMem m).pc = s.pc := rfl
@[simp] theorem State.setMem_stack (s : State) (m : Memory) : (s.setMem m).stack = s.stack := rfl
@[simp] theorem State.setMem_dt (s : State) (m : Memory) : (s.setMem m).dt = s.dt := rfl
@[simp] theorem State.setMem_st (s : State) (m : Memory) : (s.setMem m).st = s.st := rfl
@[simp] theorem State.setMem_mem (s : State) (m : Memory) : (s.setMem m).mem = m := rfl
@[simp] theorem State.setMem_wait (s : State) (m : Memory) : (s.setMem m).wait = s.wait := rfl
@[simp] theorem State.setMem_ready (s : State) (m : Memory) : (s.setMem m).ready = s.ready := rfl
@[simp] theorem State.setMem_halt (s : State) (m : Memory) : (s.setMem m).halt = s.halt := rfl
@[simp] theorem State.setMem_fb (s : State) (m : Memory) : (s.setMem m).fb = s.fb := rfl
@[simp] theorem State.setMem_keys (s : State) (m : Memory) : (s.setMem m).keys = s.keys := rfl
@[simp] theorem State.setMem_callbackArmed (s : State) (m : Memory) : (s.setMem m).callbackArmed = s.callbackArmed := rfl
@[simp] theorem State.setMem_toneOn (s : State) (m : Memory) : (s.setMem m).toneOn = s.toneOn := rfl
@[simp] theorem State.setMem_cfg (s : State) (m : Memory) : (s.setMem m).cfg = s.cfg := rfl
@[simp] theorem State.setMem_inbox (s : State) (m : Memory) : (s.setMem m).inbox = s.inbox := rfl
@[simp] theorem State.setMem_batch (s : State) (m : Memory) : (s.setMem m).batch = s.batch := rfl
@[simp] theorem State.setMem_reply (s : State) (m : Memory) : (s.setMem m).reply = s.reply := rfl
@[simp] theorem State.setMem_toneCall (s : State) (m : Memory) : (s.setMem m).toneCall = s.toneCall := rfl
@[simp] theorem State.setMem_draws (s : State) (m : Memory) : (s.setMem m).draws = s.draws := rfl
@[simp] theorem State.setMem_reg (s : State) (m : Memory) (x : RegNum) : (s.setMem m).reg x = s.reg x := rfl
@[simp] theorem State.setMem_pixel (s : State) (m : Memory) (px : Fin 64) (py : Fin 32) : (s.setMem m).pixel px py = s.pixel px py := rfl
@[simp] theorem State.setMem_isPressed (s : State) (m : Memory) (k' : KeyCode) : (s.setMem m).isPressed k' = s.isPressed k' := rfl

/-! ### After `setWait` -/

@[simp] theorem State.setWait_v (s : State) (w : Option RegNum) : (s.setWait w).v = s.v := rfl
@[simp] theorem State.setWait_i (s : State) (w : Option RegNum) : (s.setWait w).i = s.i := rfl
@[simp] theorem State.setWait_pc (s : State) (w : Option RegNum) : (s.setWait w).pc = s.pc := rfl
@[simp] theorem State.setWait_stack (s : State) (w : Option RegNum) : (s.setWait w).stack = s.stack := rfl
@[simp] theorem State.setWait_dt (s : State) (w : Option RegNum) : (s.setWait w).dt = s.dt := rfl
@[simp] theorem State.setWait_st (s : State) (w : Option RegNum) : (s.setWait w).st = s.st := rfl
@[simp] theorem State.setWait_mem (s : State) (w : Option RegNum) : (s.setWait w).mem = s.mem := rfl
@[simp] theorem State.setWait_wait (s : State) (w : Option RegNum) : (s.setWait w).wait = w := rfl
@[simp] theorem State.setWait_ready (s : State) (w : Option RegNum) : (s.setWait w).ready = s.ready := rfl
@[simp] theorem State.setWait_halt (s : State) (w : Option RegNum) : (s.setWait w).halt = s.halt := rfl
@[simp] theorem State.setWait_fb (s : State) (w : Option RegNum) : (s.setWait w).fb = s.fb := rfl
@[simp] theorem State.setWait_keys (s : State) (w : Option RegNum) : (s.setWait w).keys = s.keys := rfl
@[simp] theorem State.setWait_callbackArmed (s : State) (w : Option RegNum) : (s.setWait w).callbackArmed = s.callbackArmed := rfl
@[simp] theorem State.setWait_toneOn (s : State) (w : Option RegNum) : (s.setWait w).toneOn = s.toneOn := rfl
@[simp] theorem State.setWait_cfg (s : State) (w : Option RegNum) : (s.setWait w).cfg = s.cfg := rfl
@[simp] theorem State.setWait_inbox (s : State) (w : Option RegNum) : (s.setWait w).inbox = s.inbox := rfl
@[simp] theorem State.setWait_batch (s : State) (w : Option RegNum) : (s.setWait w).batch = s.batch := rfl
@[simp] theorem State.setWait_reply (s : State) (w : Option RegNum) : (s.setWait w).reply = s.reply := rfl
@[simp] theorem State.setWait_toneCall (s : State) (w : Option RegNum) : (s.setWait w).toneCall = s.toneCall := rfl
@[simp] theorem State.setWait_draws (s : State) (w : Option RegNum) : (s.setWait w).draws = s.draws := rfl
@[simp] theorem State.setWait_reg (s : State) (w : Option RegNum) (x : RegNum) : (s.setWait w).reg x = s.reg x := rfl
@[simp] theorem State.setWait_readByte (s : State) (w : Option RegNum) (a : Nat) : (s.setWait w).readByte a = s.readByte a := rfl
@[simp] theorem State.setWait_pixel (s : State) (w : Option RegNum) (px : Fin 64) (py : Fin 32) : (s.setWait w).pixel px py = s.pixel px py := rfl
@[simp] theorem State.setWait_isPressed (s : State) (w : Option RegNum) (k' : KeyCode) : (s.setWait w).isPressed k' = s.isPressed k' := rfl

/-! ### After `setReady` -/

@[simp] theorem State.setReady_v (s : State) (b : Bool) : (s.setReady b).v = s.v := rfl
@[simp] theorem State.setReady_i (s : State) (b : Bool) : (s.setReady b).i = s.i := rfl
@[simp] theorem State.setReady_pc (s : State) (b : Bool) : (s.setReady b).pc = s.pc := rfl
@[simp] theorem State.setReady_stack (s : State) (b : Bool) : (s.setReady b).stack = s.stack := rfl
@[simp] theorem State.setReady_dt (s : State) (b : Bool) : (s.setReady b).dt = s.dt := rfl
@[simp] theorem State.setReady_st (s : State) (b : Bool) : (s.setReady b).st = s.st := rfl
@[simp] theorem State.setReady_mem (s : State) (b : Bool) : (s.setReady b).mem = s.mem := rfl
@[simp] theorem State.setReady_wait (s : State) (b : Bool) : (s.setReady b).wait = s.wait := rfl
@[simp] theorem State.setReady_ready (s : State) (b : Bool) : (s.setReady b).ready = b := rfl
@[simp] theorem State.setReady_halt (s : State) (b : Bool) : (s.setReady b).halt = s.halt := rfl
@[simp] theorem State.setReady_fb (s : State) (b : Bool) : (s.setReady b).fb = s.fb := rfl
@[simp] theorem State.setReady_keys (s : State) (b : Bool) : (s.setReady b).keys = s.keys := rfl
@[simp] theorem State.setReady_callbackArmed (s : State) (b : Bool) : (s.setReady b).callbackArmed = s.callbackArmed := rfl
@[simp] theorem State.setReady_toneOn (s : State) (b : Bool) : (s.setReady b).toneOn = s.toneOn := rfl
@[simp] theorem State.setReady_cfg (s : State) (b : Bool) : (s.setReady b).cfg = s.cfg := rfl
@[simp] theorem State.setReady_inbox (s : State) (b : Bool) : (s.setReady b).inbox = s.inbox := rfl
@[simp] theorem State.setReady_batch (s : State) (b : Bool) : (s.setReady b).batch = s.batch := rfl
@[simp] theorem State.setReady_reply (s : State) (b : Bool) : (s.setReady b).reply = s.reply := rfl
@[simp] theorem State.setReady_toneCall (s : State) (b : Bool) : (s.setReady b).toneCall = s.toneCall := rfl
@[simp] theorem State.setReady_draws (s : State) (b : Bool) : (s.setReady b).draws = s.draws := rfl
@[simp] theorem State.setReady_reg (s : State) (b : Bool) (x : RegNum) : (s.setReady b).reg x = s.reg x := rfl
@[simp] theorem State.setReady_readByte (s : State) (b : Bool) (a : Nat) : (s.setReady b).readByte a = s.readByte a := rfl
@[simp] theorem State.setReady_pixel (s : State) (b : Bool) (px : Fin 64) (py : Fin 32) : (s.setReady b).pixel px py = s.pixel px py := rfl
@[simp] theorem State.setReady_isPressed (s : State) (b : Bool) (k' : KeyCode) : (s.setReady b).isPressed k' = s.isPressed k' := rfl

/-! ### After `setHalt` -/

@[simp] theorem State.setHalt_v (s : State) (h : Option FaultRecord) : (s.setHalt h).v = s.v := rfl
@[simp] theorem State.setHalt_i (s : State) (h : Option FaultRecord) : (s.setHalt h).i = s.i := rfl
@[simp] theorem State.setHalt_pc (s : State) (h : Option FaultRecord) : (s.setHalt h).pc = s.pc := rfl
@[simp] theorem State.setHalt_stack (s : State) (h : Option FaultRecord) : (s.setHalt h).stack = s.stack := rfl
@[simp] theorem State.setHalt_dt (s : State) (h : Option FaultRecord) : (s.setHalt h).dt = s.dt := rfl
@[simp] theorem State.setHalt_st (s : State) (h : Option FaultRecord) : (s.setHalt h).st = s.st := rfl
@[simp] theorem State.setHalt_mem (s : State) (h : Option FaultRecord) : (s.setHalt h).mem = s.mem := rfl
@[simp] theorem State.setHalt_wait (s : State) (h : Option FaultRecord) : (s.setHalt h).wait = s.wait := rfl
@[simp] theorem State.setHalt_ready (s : State) (h : Option FaultRecord) : (s.setHalt h).ready = s.ready := rfl
@[simp] theorem State.setHalt_halt (s : State) (h : Option FaultRecord) : (s.setHalt h).halt = h := rfl
@[simp] theorem State.setHalt_fb (s : State) (h : Option FaultRecord) : (s.setHalt h).fb = s.fb := rfl
@[simp] theorem State.setHalt_keys (s : State) (h : Option FaultRecord) : (s.setHalt h).keys = s.keys := rfl
@[simp] theorem State.setHalt_callbackArmed (s : State) (h : Option FaultRecord) : (s.setHalt h).callbackArmed = s.callbackArmed := rfl
@[simp] theorem State.setHalt_toneOn (s : State) (h : Option FaultRecord) : (s.setHalt h).toneOn = s.toneOn := rfl
@[simp] theorem State.setHalt_cfg (s : State) (h : Option FaultRecord) : (s.setHalt h).cfg = s.cfg := rfl
@[simp] theorem State.setHalt_inbox (s : State) (h : Option FaultRecord) : (s.setHalt h).inbox = s.inbox := rfl
@[simp] theorem State.setHalt_batch (s : State) (h : Option FaultRecord) : (s.setHalt h).batch = s.batch := rfl
@[simp] theorem State.setHalt_reply (s : State) (h : Option FaultRecord) : (s.setHalt h).reply = s.reply := rfl
@[simp] theorem State.setHalt_toneCall (s : State) (h : Option FaultRecord) : (s.setHalt h).toneCall = s.toneCall := rfl
@[simp] theorem State.setHalt_draws (s : State) (h : Option FaultRecord) : (s.setHalt h).draws = s.draws := rfl
@[simp] theorem State.setHalt_reg (s : State) (h : Option FaultRecord) (x : RegNum) : (s.setHalt h).reg x = s.reg x := rfl
@[simp] theorem State.setHalt_readByte (s : State) (h : Option FaultRecord) (a : Nat) : (s.setHalt h).readByte a = s.readByte a := rfl
@[simp] theorem State.setHalt_pixel (s : State) (h : Option FaultRecord) (px : Fin 64) (py : Fin 32) : (s.setHalt h).pixel px py = s.pixel px py := rfl
@[simp] theorem State.setHalt_isPressed (s : State) (h : Option FaultRecord) (k' : KeyCode) : (s.setHalt h).isPressed k' = s.isPressed k' := rfl

/-! ### After `setFb` -/

@[simp] theorem State.setFb_v (s : State) (fb : Framebuffer) : (s.setFb fb).v = s.v := rfl
@[simp] theorem State.setFb_i (s : State) (fb : Framebuffer) : (s.setFb fb).i = s.i := rfl
@[simp] theorem State.setFb_pc (s : State) (fb : Framebuffer) : (s.setFb fb).pc = s.pc := rfl
@[simp] theorem State.setFb_stack (s : State) (fb : Framebuffer) : (s.setFb fb).stack = s.stack := rfl
@[simp] theorem State.setFb_dt (s : State) (fb : Framebuffer) : (s.setFb fb).dt = s.dt := rfl
@[simp] theorem State.setFb_st (s : State) (fb : Framebuffer) : (s.setFb fb).st = s.st := rfl
@[simp] theorem State.setFb_mem (s : State) (fb : Framebuffer) : (s.setFb fb).mem = s.mem := rfl
@[simp] theorem State.setFb_wait (s : State) (fb : Framebuffer) : (s.setFb fb).wait = s.wait := rfl
@[simp] theorem State.setFb_ready (s : State) (fb : Framebuffer) : (s.setFb fb).ready = s.ready := rfl
@[simp] theorem State.setFb_halt (s : State) (fb : Framebuffer) : (s.setFb fb).halt = s.halt := rfl
@[simp] theorem State.setFb_fb (s : State) (fb : Framebuffer) : (s.setFb fb).fb = fb := rfl
@[simp] theorem State.setFb_keys (s : State) (fb : Framebuffer) : (s.setFb fb).keys = s.keys := rfl
@[simp] theorem State.setFb_callbackArmed (s : State) (fb : Framebuffer) : (s.setFb fb).callbackArmed = s.callbackArmed := rfl
@[simp] theorem State.setFb_toneOn (s : State) (fb : Framebuffer) : (s.setFb fb).toneOn = s.toneOn := rfl
@[simp] theorem State.setFb_cfg (s : State) (fb : Framebuffer) : (s.setFb fb).cfg = s.cfg := rfl
@[simp] theorem State.setFb_inbox (s : State) (fb : Framebuffer) : (s.setFb fb).inbox = s.inbox := rfl
@[simp] theorem State.setFb_batch (s : State) (fb : Framebuffer) : (s.setFb fb).batch = s.batch := rfl
@[simp] theorem State.setFb_reply (s : State) (fb : Framebuffer) : (s.setFb fb).reply = s.reply := rfl
@[simp] theorem State.setFb_toneCall (s : State) (fb : Framebuffer) : (s.setFb fb).toneCall = s.toneCall := rfl
@[simp] theorem State.setFb_draws (s : State) (fb : Framebuffer) : (s.setFb fb).draws = s.draws := rfl
@[simp] theorem State.setFb_reg (s : State) (fb : Framebuffer) (x : RegNum) : (s.setFb fb).reg x = s.reg x := rfl
@[simp] theorem State.setFb_readByte (s : State) (fb : Framebuffer) (a : Nat) : (s.setFb fb).readByte a = s.readByte a := rfl
@[simp] theorem State.setFb_isPressed (s : State) (fb : Framebuffer) (k' : KeyCode) : (s.setFb fb).isPressed k' = s.isPressed k' := rfl

/-! ### After `setKey` -/

@[simp] theorem State.setKey_v (s : State) (k : KeyCode) (p : Bool) : (s.setKey k p).v = s.v := rfl
@[simp] theorem State.setKey_i (s : State) (k : KeyCode) (p : Bool) : (s.setKey k p).i = s.i := rfl
@[simp] theorem State.setKey_pc (s : State) (k : KeyCode) (p : Bool) : (s.setKey k p).pc = s.pc := rfl
@[simp] theorem State.setKey_stack (s : State) (k : KeyCode) (p : Bool) : (s.setKey k p).stack = s.stack := rfl
@[simp] theorem State.setKey_dt (s : State) (k : KeyCode) (p : Bool) : (s.setKey k p).dt = s.dt := rfl
@[simp] theorem State.setKey_st (s : State) (k : KeyCode) (p : Bool) : (s.setKey k p).st = s.st := rfl
@[simp] theorem State.setKey_mem (s : State) (k : KeyCode) (p : Bool) : (s.setKey k p).mem = s.mem := rfl
@[simp] theorem State.setKey_wait (s : State) (k : KeyCode) (p : Bool) : (s.setKey k p).wait = s.wait := rfl
@[simp] theorem State.setKey_ready (s : State) (k : KeyCode) (p : Bool) : (s.setKey k p).ready = s.ready := rfl
@[simp] theorem State.setKey_halt (s : State) (k : KeyCode) (p : Bool) : (s.setKey k p).halt = s.halt := rfl
@[simp] theorem State.setKey_fb (s : State) (k : KeyCode) (p : Bool) : (s.setKey k p).fb = s.fb := rfl
@[simp] theorem State.setKey_keys (s : State) (k : KeyCode) (p : Bool) : (s.setKey k p).keys = s.keys.set k.val p := rfl
@[simp] theorem State.setKey_callbackArmed (s : State) (k : KeyCode) (p : Bool) : (s.setKey k p).callbackArmed = s.callbackArmed := rfl
@[simp] theorem State.setKey_toneOn (s : State) (k : KeyCode) (p : Bool) : (s.setKey k p).toneOn = s.toneOn := rfl
@[simp] theorem State.setKey_cfg (s : State) (k : KeyCode) (p : Bool) : (s.setKey k p).cfg = s.cfg := rfl
@[simp] theorem State.setKey_inbox (s : State) (k : KeyCode) (p : Bool) : (s.setKey k p).inbox = s.inbox := rfl
@[simp] theorem State.setKey_batch (s : State) (k : KeyCode) (p : Bool) : (s.setKey k p).batch = s.batch := rfl
@[simp] theorem State.setKey_reply (s : State) (k : KeyCode) (p : Bool) : (s.setKey k p).reply = s.reply := rfl
@[simp] theorem State.setKey_toneCall (s : State) (k : KeyCode) (p : Bool) : (s.setKey k p).toneCall = s.toneCall := rfl
@[simp] theorem State.setKey_draws (s : State) (k : KeyCode) (p : Bool) : (s.setKey k p).draws = s.draws := rfl
@[simp] theorem State.setKey_reg (s : State) (k : KeyCode) (p : Bool) (x : RegNum) : (s.setKey k p).reg x = s.reg x := rfl
@[simp] theorem State.setKey_readByte (s : State) (k : KeyCode) (p : Bool) (a : Nat) : (s.setKey k p).readByte a = s.readByte a := rfl
@[simp] theorem State.setKey_pixel (s : State) (k : KeyCode) (p : Bool) (px : Fin 64) (py : Fin 32) : (s.setKey k p).pixel px py = s.pixel px py := rfl

/-! ### After `setCallback` -/

@[simp] theorem State.setCallback_v (s : State) (b : Bool) : (s.setCallback b).v = s.v := rfl
@[simp] theorem State.setCallback_i (s : State) (b : Bool) : (s.setCallback b).i = s.i := rfl
@[simp] theorem State.setCallback_pc (s : State) (b : Bool) : (s.setCallback b).pc = s.pc := rfl
@[simp] theorem State.setCallback_stack (s : State) (b : Bool) : (s.setCallback b).stack = s.stack := rfl
@[simp] theorem State.setCallback_dt (s : State) (b : Bool) : (s.setCallback b).dt = s.dt := rfl
@[simp] theorem State.setCallback_st (s : State) (b : Bool) : (s.setCallback b).st = s.st := rfl
@[simp] theorem State.setCallback_mem (s : State) (b : Bool) : (s.setCallback b).mem = s.mem := rfl
@[simp] theorem State.setCallback_wait (s : State) (b : Bool) : (s.setCallback b).wait = s.wait := rfl
@[simp] theorem State.setCallback_ready (s : State) (b : Bool) : (s.setCallback b).ready = s.ready := rfl
@[simp] theorem State.setCallback_halt (s : State) (b : Bool) : (s.setCallback b).halt = s.halt := rfl
@[simp] theorem State.setCallback_fb (s : State) (b : Bool) : (s.setCallback b).fb = s.fb := rfl
@[simp] theorem State.setCallback_keys (s : State) (b : Bool) : (s.setCallback b).keys = s.keys := rfl
@[simp] theorem State.setCallback_callbackArmed (s : State) (b : Bool) : (s.setCallback b).callbackArmed = b := rfl
@[simp] theorem State.setCallback_toneOn (s : State) (b : Bool) : (s.setCallback b).toneOn = s.toneOn := rfl
@[simp] theorem State.setCallback_cfg (s : State) (b : Bool) : (s.setCallback b).cfg = s.cfg := rfl
@[simp] theorem State.setCallback_inbox (s : State) (b : Bool) : (s.setCallback b).inbox = s.inbox := rfl
@[simp] theorem State.setCallback_batch (s : State) (b : Bool) : (s.setCallback b).batch = s.batch := rfl
@[simp] theorem State.setCallback_reply (s : State) (b : Bool) : (s.setCallback b).reply = s.reply := rfl
@[simp] theorem State.setCallback_toneCall (s : State) (b : Bool) : (s.setCallback b).toneCall = s.toneCall := rfl
@[simp] theorem State.setCallback_draws (s : State) (b : Bool) : (s.setCallback b).draws = s.draws := rfl
@[simp] theorem State.setCallback_reg (s : State) (b : Bool) (x : RegNum) : (s.setCallback b).reg x = s.reg x := rfl
@[simp] theorem State.setCallback_readByte (s : State) (b : Bool) (a : Nat) : (s.setCallback b).readByte a = s.readByte a := rfl
@[simp] theorem State.setCallback_pixel (s : State) (b : Bool) (px : Fin 64) (py : Fin 32) : (s.setCallback b).pixel px py = s.pixel px py := rfl
@[simp] theorem State.setCallback_isPressed (s : State) (b : Bool) (k' : KeyCode) : (s.setCallback b).isPressed k' = s.isPressed k' := rfl

/-! ### After `setToneOn` -/

@[simp] theorem State.setToneOn_v (s : State) (b : Bool) : (s.setToneOn b).v = s.v := rfl
@[simp] theorem State.setToneOn_i (s : State) (b : Bool) : (s.setToneOn b).i = s.i := rfl
@[simp] theorem State.setToneOn_pc (s : State) (b : Bool) : (s.setToneOn b).pc = s.pc := rfl
@[simp] theorem State.setToneOn_stack (s : State) (b : Bool) : (s.setToneOn b).stack = s.stack := rfl
@[simp] theorem State.setToneOn_dt (s : State) (b : Bool) : (s.setToneOn b).dt = s.dt := rfl
@[simp] theorem State.setToneOn_st (s : State) (b : Bool) : (s.setToneOn b).st = s.st := rfl
@[simp] theorem State.setToneOn_mem (s : State) (b : Bool) : (s.setToneOn b).mem = s.mem := rfl
@[simp] theorem State.setToneOn_wait (s : State) (b : Bool) : (s.setToneOn b).wait = s.wait := rfl
@[simp] theorem State.setToneOn_ready (s : State) (b : Bool) : (s.setToneOn b).ready = s.ready := rfl
@[simp] theorem State.setToneOn_halt (s : State) (b : Bool) : (s.setToneOn b).halt = s.halt := rfl
@[simp] theorem State.setToneOn_fb (s : State) (b : Bool) : (s.setToneOn b).fb = s.fb := rfl
@[simp] theorem State.setToneOn_keys (s : State) (b : Bool) : (s.setToneOn b).keys = s.keys := rfl
@[simp] theorem State.setToneOn_callbackArmed (s : State) (b : Bool) : (s.setToneOn b).callbackArmed = s.callbackArmed := rfl
@[simp] theorem State.setToneOn_toneOn (s : State) (b : Bool) : (s.setToneOn b).toneOn = b := rfl
@[simp] theorem State.setToneOn_cfg (s : State) (b : Bool) : (s.setToneOn b).cfg = s.cfg := rfl
@[simp] theorem State.setToneOn_inbox (s : State) (b : Bool) : (s.setToneOn b).inbox = s.inbox := rfl
@[simp] theorem State.setToneOn_batch (s : State) (b : Bool) : (s.setToneOn b).batch = s.batch := rfl
@[simp] theorem State.setToneOn_reply (s : State) (b : Bool) : (s.setToneOn b).reply = s.reply := rfl
@[simp] theorem State.setToneOn_toneCall (s : State) (b : Bool) : (s.setToneOn b).toneCall = s.toneCall := rfl
@[simp] theorem State.setToneOn_draws (s : State) (b : Bool) : (s.setToneOn b).draws = s.draws := rfl
@[simp] theorem State.setToneOn_reg (s : State) (b : Bool) (x : RegNum) : (s.setToneOn b).reg x = s.reg x := rfl
@[simp] theorem State.setToneOn_readByte (s : State) (b : Bool) (a : Nat) : (s.setToneOn b).readByte a = s.readByte a := rfl
@[simp] theorem State.setToneOn_pixel (s : State) (b : Bool) (px : Fin 64) (py : Fin 32) : (s.setToneOn b).pixel px py = s.pixel px py := rfl
@[simp] theorem State.setToneOn_isPressed (s : State) (b : Bool) (k' : KeyCode) : (s.setToneOn b).isPressed k' = s.isPressed k' := rfl

/-! ### After `setInbox` -/

@[simp] theorem State.setInbox_v (s : State) (l : List Transaction) : (s.setInbox l).v = s.v := rfl
@[simp] theorem State.setInbox_i (s : State) (l : List Transaction) : (s.setInbox l).i = s.i := rfl
@[simp] theorem State.setInbox_pc (s : State) (l : List Transaction) : (s.setInbox l).pc = s.pc := rfl
@[simp] theorem State.setInbox_stack (s : State) (l : List Transaction) : (s.setInbox l).stack = s.stack := rfl
@[simp] theorem State.setInbox_dt (s : State) (l : List Transaction) : (s.setInbox l).dt = s.dt := rfl
@[simp] theorem State.setInbox_st (s : State) (l : List Transaction) : (s.setInbox l).st = s.st := rfl
@[simp] theorem State.setInbox_mem (s : State) (l : List Transaction) : (s.setInbox l).mem = s.mem := rfl
@[simp] theorem State.setInbox_wait (s : State) (l : List Transaction) : (s.setInbox l).wait = s.wait := rfl
@[simp] theorem State.setInbox_ready (s : State) (l : List Transaction) : (s.setInbox l).ready = s.ready := rfl
@[simp] theorem State.setInbox_halt (s : State) (l : List Transaction) : (s.setInbox l).halt = s.halt := rfl
@[simp] theorem State.setInbox_fb (s : State) (l : List Transaction) : (s.setInbox l).fb = s.fb := rfl
@[simp] theorem State.setInbox_keys (s : State) (l : List Transaction) : (s.setInbox l).keys = s.keys := rfl
@[simp] theorem State.setInbox_callbackArmed (s : State) (l : List Transaction) : (s.setInbox l).callbackArmed = s.callbackArmed := rfl
@[simp] theorem State.setInbox_toneOn (s : State) (l : List Transaction) : (s.setInbox l).toneOn = s.toneOn := rfl
@[simp] theorem State.setInbox_cfg (s : State) (l : List Transaction) : (s.setInbox l).cfg = s.cfg := rfl
@[simp] theorem State.setInbox_inbox (s : State) (l : List Transaction) : (s.setInbox l).inbox = l := rfl
@[simp] theorem State.setInbox_batch (s : State) (l : List Transaction) : (s.setInbox l).batch = s.batch := rfl
@[simp] theorem State.setInbox_reply (s : State) (l : List Transaction) : (s.setInbox l).reply = s.reply := rfl
@[simp] theorem State.setInbox_toneCall (s : State) (l : List Transaction) : (s.setInbox l).toneCall = s.toneCall := rfl
@[simp] theorem State.setInbox_draws (s : State) (l : List Transaction) : (s.setInbox l).draws = s.draws := rfl
@[simp] theorem State.setInbox_reg (s : State) (l : List Transaction) (x : RegNum) : (s.setInbox l).reg x = s.reg x := rfl
@[simp] theorem State.setInbox_readByte (s : State) (l : List Transaction) (a : Nat) : (s.setInbox l).readByte a = s.readByte a := rfl
@[simp] theorem State.setInbox_pixel (s : State) (l : List Transaction) (px : Fin 64) (py : Fin 32) : (s.setInbox l).pixel px py = s.pixel px py := rfl
@[simp] theorem State.setInbox_isPressed (s : State) (l : List Transaction) (k' : KeyCode) : (s.setInbox l).isPressed k' = s.isPressed k' := rfl

/-! ### After `setBatch` -/

@[simp] theorem State.setBatch_v (s : State) (b : Option Nat) : (s.setBatch b).v = s.v := rfl
@[simp] theorem State.setBatch_i (s : State) (b : Option Nat) : (s.setBatch b).i = s.i := rfl
@[simp] theorem State.setBatch_pc (s : State) (b : Option Nat) : (s.setBatch b).pc = s.pc := rfl
@[simp] theorem State.setBatch_stack (s : State) (b : Option Nat) : (s.setBatch b).stack = s.stack := rfl
@[simp] theorem State.setBatch_dt (s : State) (b : Option Nat) : (s.setBatch b).dt = s.dt := rfl
@[simp] theorem State.setBatch_st (s : State) (b : Option Nat) : (s.setBatch b).st = s.st := rfl
@[simp] theorem State.setBatch_mem (s : State) (b : Option Nat) : (s.setBatch b).mem = s.mem := rfl
@[simp] theorem State.setBatch_wait (s : State) (b : Option Nat) : (s.setBatch b).wait = s.wait := rfl
@[simp] theorem State.setBatch_ready (s : State) (b : Option Nat) : (s.setBatch b).ready = s.ready := rfl
@[simp] theorem State.setBatch_halt (s : State) (b : Option Nat) : (s.setBatch b).halt = s.halt := rfl
@[simp] theorem State.setBatch_fb (s : State) (b : Option Nat) : (s.setBatch b).fb = s.fb := rfl
@[simp] theorem State.setBatch_keys (s : State) (b : Option Nat) : (s.setBatch b).keys = s.keys := rfl
@[simp] theorem State.setBatch_callbackArmed (s : State) (b : Option Nat) : (s.setBatch b).callbackArmed = s.callbackArmed := rfl
@[simp] theorem State.setBatch_toneOn (s : State) (b : Option Nat) : (s.setBatch b).toneOn = s.toneOn := rfl
@[simp] theorem State.setBatch_cfg (s : State) (b : Option Nat) : (s.setBatch b).cfg = s.cfg := rfl
@[simp] theorem State.setBatch_inbox (s : State) (b : Option Nat) : (s.setBatch b).inbox = s.inbox := rfl
@[simp] theorem State.setBatch_batch (s : State) (b : Option Nat) : (s.setBatch b).batch = b := rfl
@[simp] theorem State.setBatch_reply (s : State) (b : Option Nat) : (s.setBatch b).reply = s.reply := rfl
@[simp] theorem State.setBatch_toneCall (s : State) (b : Option Nat) : (s.setBatch b).toneCall = s.toneCall := rfl
@[simp] theorem State.setBatch_draws (s : State) (b : Option Nat) : (s.setBatch b).draws = s.draws := rfl
@[simp] theorem State.setBatch_reg (s : State) (b : Option Nat) (x : RegNum) : (s.setBatch b).reg x = s.reg x := rfl
@[simp] theorem State.setBatch_readByte (s : State) (b : Option Nat) (a : Nat) : (s.setBatch b).readByte a = s.readByte a := rfl
@[simp] theorem State.setBatch_pixel (s : State) (b : Option Nat) (px : Fin 64) (py : Fin 32) : (s.setBatch b).pixel px py = s.pixel px py := rfl
@[simp] theorem State.setBatch_isPressed (s : State) (b : Option Nat) (k' : KeyCode) : (s.setBatch b).isPressed k' = s.isPressed k' := rfl

/-! ### After `setReply` -/

@[simp] theorem State.setReply_v (s : State) (r : Option Reply) : (s.setReply r).v = s.v := rfl
@[simp] theorem State.setReply_i (s : State) (r : Option Reply) : (s.setReply r).i = s.i := rfl
@[simp] theorem State.setReply_pc (s : State) (r : Option Reply) : (s.setReply r).pc = s.pc := rfl
@[simp] theorem State.setReply_stack (s : State) (r : Option Reply) : (s.setReply r).stack = s.stack := rfl
@[simp] theorem State.setReply_dt (s : State) (r : Option Reply) : (s.setReply r).dt = s.dt := rfl
@[simp] theorem State.setReply_st (s : State) (r : Option Reply) : (s.setReply r).st = s.st := rfl
@[simp] theorem State.setReply_mem (s : State) (r : Option Reply) : (s.setReply r).mem = s.mem := rfl
@[simp] theorem State.setReply_wait (s : State) (r : Option Reply) : (s.setReply r).wait = s.wait := rfl
@[simp] theorem State.setReply_ready (s : State) (r : Option Reply) : (s.setReply r).ready = s.ready := rfl
@[simp] theorem State.setReply_halt (s : State) (r : Option Reply) : (s.setReply r).halt = s.halt := rfl
@[simp] theorem State.setReply_fb (s : State) (r : Option Reply) : (s.setReply r).fb = s.fb := rfl
@[simp] theorem State.setReply_keys (s : State) (r : Option Reply) : (s.setReply r).keys = s.keys := rfl
@[simp] theorem State.setReply_callbackArmed (s : State) (r : Option Reply) : (s.setReply r).callbackArmed = s.callbackArmed := rfl
@[simp] theorem State.setReply_toneOn (s : State) (r : Option Reply) : (s.setReply r).toneOn = s.toneOn := rfl
@[simp] theorem State.setReply_cfg (s : State) (r : Option Reply) : (s.setReply r).cfg = s.cfg := rfl
@[simp] theorem State.setReply_inbox (s : State) (r : Option Reply) : (s.setReply r).inbox = s.inbox := rfl
@[simp] theorem State.setReply_batch (s : State) (r : Option Reply) : (s.setReply r).batch = s.batch := rfl
@[simp] theorem State.setReply_reply (s : State) (r : Option Reply) : (s.setReply r).reply = r := rfl
@[simp] theorem State.setReply_toneCall (s : State) (r : Option Reply) : (s.setReply r).toneCall = s.toneCall := rfl
@[simp] theorem State.setReply_draws (s : State) (r : Option Reply) : (s.setReply r).draws = s.draws := rfl
@[simp] theorem State.setReply_reg (s : State) (r : Option Reply) (x : RegNum) : (s.setReply r).reg x = s.reg x := rfl
@[simp] theorem State.setReply_readByte (s : State) (r : Option Reply) (a : Nat) : (s.setReply r).readByte a = s.readByte a := rfl
@[simp] theorem State.setReply_pixel (s : State) (r : Option Reply) (px : Fin 64) (py : Fin 32) : (s.setReply r).pixel px py = s.pixel px py := rfl
@[simp] theorem State.setReply_isPressed (s : State) (r : Option Reply) (k' : KeyCode) : (s.setReply r).isPressed k' = s.isPressed k' := rfl

/-! ### After `setToneCall` -/

@[simp] theorem State.setToneCall_v (s : State) (c : Option ToneCall) : (s.setToneCall c).v = s.v := rfl
@[simp] theorem State.setToneCall_i (s : State) (c : Option ToneCall) : (s.setToneCall c).i = s.i := rfl
@[simp] theorem State.setToneCall_pc (s : State) (c : Option ToneCall) : (s.setToneCall c).pc = s.pc := rfl
@[simp] theorem State.setToneCall_stack (s : State) (c : Option ToneCall) : (s.setToneCall c).stack = s.stack := rfl
@[simp] theorem State.setToneCall_dt (s : State) (c : Option ToneCall) : (s.setToneCall c).dt = s.dt := rfl
@[simp] theorem State.setToneCall_st (s : State) (c : Option ToneCall) : (s.setToneCall c).st = s.st := rfl
@[simp] theorem State.setToneCall_mem (s : State) (c : Option ToneCall) : (s.setToneCall c).mem = s.mem := rfl
@[simp] theorem State.setToneCall_wait (s : State) (c : Option ToneCall) : (s.setToneCall c).wait = s.wait := rfl
@[simp] theorem State.setToneCall_ready (s : State) (c : Option ToneCall) : (s.setToneCall c).ready = s.ready := rfl
@[simp] theorem State.setToneCall_halt (s : State) (c : Option ToneCall) : (s.setToneCall c).halt = s.halt := rfl
@[simp] theorem State.setToneCall_fb (s : State) (c : Option ToneCall) : (s.setToneCall c).fb = s.fb := rfl
@[simp] theorem State.setToneCall_keys (s : State) (c : Option ToneCall) : (s.setToneCall c).keys = s.keys := rfl
@[simp] theorem State.setToneCall_callbackArmed (s : State) (c : Option ToneCall) : (s.setToneCall c).callbackArmed = s.callbackArmed := rfl
@[simp] theorem State.setToneCall_toneOn (s : State) (c : Option ToneCall) : (s.setToneCall c).toneOn = s.toneOn := rfl
@[simp] theorem State.setToneCall_cfg (s : State) (c : Option ToneCall) : (s.setToneCall c).cfg = s.cfg := rfl
@[simp] theorem State.setToneCall_inbox (s : State) (c : Option ToneCall) : (s.setToneCall c).inbox = s.inbox := rfl
@[simp] theorem State.setToneCall_batch (s : State) (c : Option ToneCall) : (s.setToneCall c).batch = s.batch := rfl
@[simp] theorem State.setToneCall_reply (s : State) (c : Option ToneCall) : (s.setToneCall c).reply = s.reply := rfl
@[simp] theorem State.setToneCall_toneCall (s : State) (c : Option ToneCall) : (s.setToneCall c).toneCall = c := rfl
@[simp] theorem State.setToneCall_draws (s : State) (c : Option ToneCall) : (s.setToneCall c).draws = s.draws := rfl
@[simp] theorem State.setToneCall_reg (s : State) (c : Option ToneCall) (x : RegNum) : (s.setToneCall c).reg x = s.reg x := rfl
@[simp] theorem State.setToneCall_readByte (s : State) (c : Option ToneCall) (a : Nat) : (s.setToneCall c).readByte a = s.readByte a := rfl
@[simp] theorem State.setToneCall_pixel (s : State) (c : Option ToneCall) (px : Fin 64) (py : Fin 32) : (s.setToneCall c).pixel px py = s.pixel px py := rfl
@[simp] theorem State.setToneCall_isPressed (s : State) (c : Option ToneCall) (k' : KeyCode) : (s.setToneCall c).isPressed k' = s.isPressed k' := rfl

/-! ### After `setDraws` -/

@[simp] theorem State.setDraws_v (s : State) (k : Nat) : (s.setDraws k).v = s.v := rfl
@[simp] theorem State.setDraws_i (s : State) (k : Nat) : (s.setDraws k).i = s.i := rfl
@[simp] theorem State.setDraws_pc (s : State) (k : Nat) : (s.setDraws k).pc = s.pc := rfl
@[simp] theorem State.setDraws_stack (s : State) (k : Nat) : (s.setDraws k).stack = s.stack := rfl
@[simp] theorem State.setDraws_dt (s : State) (k : Nat) : (s.setDraws k).dt = s.dt := rfl
@[simp] theorem State.setDraws_st (s : State) (k : Nat) : (s.setDraws k).st = s.st := rfl
@[simp] theorem State.setDraws_mem (s : State) (k : Nat) : (s.setDraws k).mem = s.mem := rfl
@[simp] theorem State.setDraws_wait (s : State) (k : Nat) : (s.setDraws k).wait = s.wait := rfl
@[simp] theorem State.setDraws_ready (s : State) (k : Nat) : (s.setDraws k).ready = s.ready := rfl
@[simp] theorem State.setDraws_halt (s : State) (k : Nat) : (s.setDraws k).halt = s.halt := rfl
@[simp] theorem State.setDraws_fb (s : State) (k : Nat) : (s.setDraws k).fb = s.fb := rfl
@[simp] theorem State.setDraws_keys (s : State) (k : Nat) : (s.setDraws k).keys = s.keys := rfl
@[simp] theorem State.setDraws_callbackArmed (s : State) (k : Nat) : (s.setDraws k).callbackArmed = s.callbackArmed := rfl
@[simp] theorem State.setDraws_toneOn (s : State) (k : Nat) : (s.setDraws k).toneOn = s.toneOn := rfl
@[simp] theorem State.setDraws_cfg (s : State) (k : Nat) : (s.setDraws k).cfg = s.cfg := rfl
@[simp] theorem State.setDraws_inbox (s : State) (k : Nat) : (s.setDraws k).inbox = s.inbox := rfl
@[simp] theorem State.setDraws_batch (s : State) (k : Nat) : (s.setDraws k).batch = s.batch := rfl
@[simp] theorem State.setDraws_reply (s : State) (k : Nat) : (s.setDraws k).reply = s.reply := rfl
@[simp] theorem State.setDraws_toneCall (s : State) (k : Nat) : (s.setDraws k).toneCall = s.toneCall := rfl
@[simp] theorem State.setDraws_draws (s : State) (k : Nat) : (s.setDraws k).draws = k := rfl
@[simp] theorem State.setDraws_reg (s : State) (k : Nat) (x : RegNum) : (s.setDraws k).reg x = s.reg x := rfl
@[simp] theorem State.setDraws_readByte (s : State) (k : Nat) (a : Nat) : (s.setDraws k).readByte a = s.readByte a := rfl
@[simp] theorem State.setDraws_pixel (s : State) (k : Nat) (px : Fin 64) (py : Fin 32) : (s.setDraws k).pixel px py = s.pixel px py := rfl
@[simp] theorem State.setDraws_isPressed (s : State) (k : Nat) (k' : KeyCode) : (s.setDraws k).isPressed k' = s.isPressed k' := rfl

/-! ### One register, one key, one pixel -/

theorem State.reg_setReg (s : State) (x y : RegNum) (b : Byte) :
    (s.setReg x b).reg y = if y = x then b else s.reg y := by
  simp only [State.reg, State.setReg, State.setRegs_v, Vector.getElem_set, Fin.ext_iff, eq_comm]

@[simp] theorem State.reg_setReg_same (s : State) (x : RegNum) (b : Byte) : (s.setReg x b).reg x = b := by
  simp [State.reg_setReg]

@[simp] theorem State.reg_setReg_other (s : State) {x y : RegNum} (b : Byte) (h : y ≠ x) :
    (s.setReg x b).reg y = s.reg y := by
  simp [State.reg_setReg, h]

theorem State.isPressed_setKey (s : State) (k j : KeyCode) (p : Bool) :
    (s.setKey k p).isPressed j = if j = k then p else s.isPressed j := by
  simp only [State.isPressed, State.setKey_keys, Vector.getElem_set, Fin.ext_iff, eq_comm]

@[simp] theorem State.setReg_i (s : State) (x : RegNum) (b : Byte) : (s.setReg x b).i = s.i := rfl
@[simp] theorem State.setReg_pc (s : State) (x : RegNum) (b : Byte) : (s.setReg x b).pc = s.pc := rfl
@[simp] theorem State.setReg_stack (s : State) (x : RegNum) (b : Byte) : (s.setReg x b).stack = s.stack := rfl
@[simp] theorem State.setReg_dt (s : State) (x : RegNum) (b : Byte) : (s.setReg x b).dt = s.dt := rfl
@[simp] theorem State.setReg_st (s : State) (x : RegNum) (b : Byte) : (s.setReg x b).st = s.st := rfl
@[simp] theorem State.setReg_mem (s : State) (x : RegNum) (b : Byte) : (s.setReg x b).mem = s.mem := rfl
@[simp] theorem State.setReg_wait (s : State) (x : RegNum) (b : Byte) : (s.setReg x b).wait = s.wait := rfl
@[simp] theorem State.setReg_ready (s : State) (x : RegNum) (b : Byte) : (s.setReg x b).ready = s.ready := rfl
@[simp] theorem State.setReg_halt (s : State) (x : RegNum) (b : Byte) : (s.setReg x b).halt = s.halt := rfl
@[simp] theorem State.setReg_fb (s : State) (x : RegNum) (b : Byte) : (s.setReg x b).fb = s.fb := rfl
@[simp] theorem State.setReg_keys (s : State) (x : RegNum) (b : Byte) : (s.setReg x b).keys = s.keys := rfl
@[simp] theorem State.setReg_callbackArmed (s : State) (x : RegNum) (b : Byte) : (s.setReg x b).callbackArmed = s.callbackArmed := rfl
@[simp] theorem State.setReg_toneOn (s : State) (x : RegNum) (b : Byte) : (s.setReg x b).toneOn = s.toneOn := rfl
@[simp] theorem State.setReg_cfg (s : State) (x : RegNum) (b : Byte) : (s.setReg x b).cfg = s.cfg := rfl
@[simp] theorem State.setReg_inbox (s : State) (x : RegNum) (b : Byte) : (s.setReg x b).inbox = s.inbox := rfl
@[simp] theorem State.setReg_batch (s : State) (x : RegNum) (b : Byte) : (s.setReg x b).batch = s.batch := rfl
@[simp] theorem State.setReg_reply (s : State) (x : RegNum) (b : Byte) : (s.setReg x b).reply = s.reply := rfl
@[simp] theorem State.setReg_toneCall (s : State) (x : RegNum) (b : Byte) : (s.setReg x b).toneCall = s.toneCall := rfl
@[simp] theorem State.setReg_draws (s : State) (x : RegNum) (b : Byte) : (s.setReg x b).draws = s.draws := rfl
@[simp] theorem State.setReg_readByte (s : State) (x : RegNum) (b : Byte) (a : Nat) : (s.setReg x b).readByte a = s.readByte a := rfl
@[simp] theorem State.setReg_pixel (s : State) (x : RegNum) (b : Byte) (px : Fin 64) (py : Fin 32) : (s.setReg x b).pixel px py = s.pixel px py := rfl
@[simp] theorem State.setReg_isPressed (s : State) (x : RegNum) (b : Byte) (k : KeyCode) : (s.setReg x b).isPressed k = s.isPressed k := rfl

end Sys2Proof.Machine
end

