-- ==== Sys2Proof/Laws/Memory.lean ====
section
/-! SUPPORT. Memory: reads after writes, and that every memory operation keeps the canonical form. -/

namespace Sys2Proof.Machine

/-! ### The canonical form -/

theorem Memory.wfFrom_cons {font : Vector Byte fontLen} {low a : Nat} {v : Byte} {rest : Memory} :
    Memory.wfFrom font low ((a, v) :: rest) = true ↔
      low ≤ a ∧ a < 4096 ∧ v ≠ Memory.unlisted font a ∧ Memory.wfFrom font (a + 1) rest = true := by
  simp [Memory.wfFrom, and_assoc]

theorem Memory.wfFrom_lower {font : Vector Byte fontLen} {low low' : Nat} {m : Memory} (h : low' ≤ low)
    (hm : Memory.wfFrom font low m = true) : Memory.wfFrom font low' m = true := by
  cases m with
  | nil => rfl
  | cons c rest =>
    obtain ⟨a, v⟩ := c
    rw [Memory.wfFrom_cons] at hm ⊢
    exact ⟨by omega, hm.2⟩

/-- Below its first entry a canonical memory reads as unlisted. -/
theorem Memory.read_below {font : Vector Byte fontLen} {low : Nat} {m : Memory} (hm : Memory.wfFrom font low m = true)
    {a : Nat} (ha : a < low) : Memory.read font m a = Memory.unlisted font a := by
  induction m generalizing low with
  | nil => rfl
  | cons c rest ih =>
    obtain ⟨b, v⟩ := c
    rw [Memory.wfFrom_cons] at hm
    have hne : b ≠ a := by omega
    simp only [Memory.read, hne, if_false]
    exact ih hm.2.2.2 (by omega)

theorem Memory.wfFrom_entry {font : Vector Byte fontLen} {low a : Nat} {v : Byte} {rest : Memory} (hlow : low ≤ a)
    (ha : a < 4096) (hr : Memory.wfFrom font (a + 1) rest = true) :
    Memory.wfFrom font low (Memory.entry font a v rest) = true := by
  unfold Memory.entry
  split
  · exact Memory.wfFrom_lower (by omega) hr
  · exact Memory.wfFrom_cons.mpr ⟨hlow, ha, ‹_›, hr⟩

theorem Memory.wfFrom_write {font : Vector Byte fontLen} {low : Nat} {m : Memory} {a : Nat} (v : Byte)
    (hm : Memory.wfFrom font low m = true) (hlow : low ≤ a) (ha : a < 4096) :
    Memory.wfFrom font low (Memory.write font m a v) = true := by
  induction m generalizing low with
  | nil => exact Memory.wfFrom_entry hlow ha rfl
  | cons c rest ih =>
    obtain ⟨b, w⟩ := c
    have hm' := Memory.wfFrom_cons.mp hm
    simp only [Memory.write]
    split
    · exact Memory.wfFrom_entry hlow ha (Memory.wfFrom_cons.mpr ⟨by omega, hm'.2⟩)
    · split
      · subst ‹a = b›
        exact Memory.wfFrom_entry hlow ha hm'.2.2.2
      · exact Memory.wfFrom_cons.mpr ⟨hm'.1, hm'.2.1, hm'.2.2.1, ih hm'.2.2.2 (by omega)⟩

/-- A write inside memory keeps the canonical form. -/
theorem Memory.wf_write {font : Vector Byte fontLen} {m : Memory} {a : Nat} (v : Byte) (hm : Memory.wf font m = true)
    (ha : a < 4096) : Memory.wf font (Memory.write font m a v) = true :=
  Memory.wfFrom_write v hm (Nat.zero_le a) ha

/-- Writes inside memory keep the canonical form. -/
theorem Memory.wf_writeList {font : Vector Byte fontLen} {m : Memory} {a : Nat} {l : List Byte}
    (hm : Memory.wf font m = true) (ha : l = [] ∨ a + l.length ≤ 4096) :
    Memory.wf font (Memory.writeList font m a l) = true := by
  induction l generalizing m a with
  | nil => exact hm
  | cons b rest ih =>
    simp only [List.length_cons, reduceCtorEq, false_or] at ha
    exact ih (Memory.wf_write b hm (by omega)) (.inr (by omega))

/-! ### Reads after writes -/

theorem Memory.read_entry_other {font : Vector Byte fontLen} {a c : Nat} {v : Byte} {rest : Memory} (h : c ≠ a) :
    Memory.read font (Memory.entry font a v rest) c = Memory.read font rest c := by
  unfold Memory.entry
  split
  · rfl
  · simp [Memory.read, h.symm]

theorem Memory.read_entry_same {font : Vector Byte fontLen} {a : Nat} {v : Byte} {rest : Memory}
    (hr : Memory.wfFrom font (a + 1) rest = true) : Memory.read font (Memory.entry font a v rest) a = v := by
  unfold Memory.entry
  split
  · rw [Memory.read_below hr (by omega)]; exact Eq.symm ‹_›
  · simp [Memory.read]

/-- A write leaves every other address alone. -/
theorem Memory.read_write_other {font : Vector Byte fontLen} {m : Memory} {a c : Nat} {v : Byte} (h : c ≠ a) :
    Memory.read font (Memory.write font m a v) c = Memory.read font m c := by
  induction m with
  | nil => exact Memory.read_entry_other h
  | cons e rest ih =>
    obtain ⟨b, w⟩ := e
    simp only [Memory.write]
    split
    · exact Memory.read_entry_other h
    · split
      · subst ‹a = b›
        rw [Memory.read_entry_other h]
        simp [Memory.read, h.symm]
      · simp only [Memory.read, ih]

theorem Memory.read_write_same_from {font : Vector Byte fontLen} {low : Nat} {m : Memory} {a : Nat} {v : Byte}
    (hm : Memory.wfFrom font low m = true) : Memory.read font (Memory.write font m a v) a = v := by
  induction m generalizing low with
  | nil => exact Memory.read_entry_same (rest := []) rfl
  | cons e rest ih =>
    obtain ⟨b, w⟩ := e
    have hm' := Memory.wfFrom_cons.mp hm
    simp only [Memory.write]
    split
    · exact Memory.read_entry_same (Memory.wfFrom_cons.mpr ⟨by omega, hm'.2⟩)
    · split
      · subst ‹a = b›
        exact Memory.read_entry_same hm'.2.2.2
      · have hne : b ≠ a := fun hba => ‹¬a = b› hba.symm
        simp only [Memory.read, hne, if_false]
        exact ih hm'.2.2.2

/-- In a canonical memory a read after a write to the same address gives the byte written. -/
theorem Memory.read_write_same {font : Vector Byte fontLen} {m : Memory} {a : Nat} {v : Byte}
    (hm : Memory.wf font m = true) : Memory.read font (Memory.write font m a v) a = v :=
  Memory.read_write_same_from hm

/-- Writes at a, a+1, ... leave every address outside them alone. -/
theorem Memory.read_writeList_outside {font : Vector Byte fontLen} {m : Memory} {a c : Nat} {l : List Byte}
    (h : c < a ∨ a + l.length ≤ c) : Memory.read font (Memory.writeList font m a l) c = Memory.read font m c := by
  induction l generalizing m a with
  | nil => rfl
  | cons b rest ih =>
    simp only [List.length_cons] at h
    rw [Memory.writeList, ih (by omega), Memory.read_write_other (by omega)]

/-- After writes at a, a+1, ... inside memory, each of those addresses reads as the byte written to it. -/
theorem Memory.read_writeList_inside {font : Vector Byte fontLen} {m : Memory} {a k : Nat} {l : List Byte}
    (hm : Memory.wf font m = true) (ha : a + l.length ≤ 4096) (hk : k < l.length) :
    Memory.read font (Memory.writeList font m a l) (a + k) = l[k] := by
  induction l generalizing m a k with
  | nil => simp at hk
  | cons b rest ih =>
    simp only [List.length_cons] at ha hk
    have hm' := Memory.wf_write (font := font) (a := a) b hm (by omega)
    rw [Memory.writeList]
    cases k with
    | zero =>
      rw [Memory.read_writeList_outside (by omega)]
      simpa using Memory.read_write_same hm
    | succ k =>
      have h := ih hm' (a := a + 1) (k := k) (by omega) (by omega)
      rw [show a + (k + 1) = a + 1 + k by omega, h]
      rfl

/-! ### The machine's memory -/

theorem State.readByte_writeBytes_outside {s : State} {a c : Nat} {l : List Byte} (h : c < a ∨ a + l.length ≤ c) :
    (s.writeBytes a l).readByte c = s.readByte c := by
  simpa [State.readByte, State.writeBytes] using Memory.read_writeList_outside h

theorem State.readByte_writeBytes_inside {s : State} {a k : Nat} {l : List Byte}
    (hm : Memory.wf s.cfg.font s.mem = true) (ha : a + l.length ≤ 4096) (hk : k < l.length) :
    (s.writeBytes a l).readByte (a + k) = l[k] := by
  simpa [State.readByte, State.writeBytes] using Memory.read_writeList_inside hm ha hk

theorem State.wf_writeBytes {s : State} {a : Nat} {l : List Byte} (hm : Memory.wf s.cfg.font s.mem = true)
    (ha : l = [] ∨ a + l.length ≤ 4096) :
    Memory.wf (s.writeBytes a l).cfg.font (s.writeBytes a l).mem = true := by
  simpa [State.writeBytes] using Memory.wf_writeList hm ha

end Sys2Proof.Machine
end

