-- ==== Sys2Proof/Laws/Frame.lean ====
section
/-! SUPPORT. Frames: how they compose, and the frame of each update and of each shared operation. -/

namespace Sys2Proof.Machine

theorem Part.Same.trans {s t u : State} {p : Part} (h1 : p.Same s t) (h2 : p.Same t u) : p.Same s u := by
  cases p <;> simp_all [Part.Same]

theorem Frame.refl (s : State) : Frame [] [] s s := ⟨fun _ _ => rfl, fun p _ => by cases p <;> simp [Part.Same]⟩

theorem Frame.trans {s t u : State} {r1 r2 : List RegNum} {p1 p2 : List Part} (h1 : Frame r1 p1 s t)
    (h2 : Frame r2 p2 t u) : Frame (r1 ++ r2) (p1 ++ p2) s u := by
  constructor
  · intro r hr
    rw [List.mem_append, not_or] at hr
    exact (h2.regs r hr.2).trans (h1.regs r hr.1)
  · intro p hp
    rw [List.mem_append, not_or] at hp
    exact (h1.parts p hp.1).trans (h2.parts p hp.2)

theorem Frame.weaken {s t : State} {r r' : List RegNum} {p p' : List Part} (h : Frame r p s t) (hr : r ⊆ r' := by simp)
    (hp : p ⊆ p' := by simp) : Frame r' p' s t :=
  ⟨fun x hx => h.regs x (fun hm => hx (hr hm)), fun x hx => h.parts x (fun hm => hx (hp hm))⟩

/-! ### One update each -/

theorem frame_setReg (s : State) (x : RegNum) (b : Byte) : Frame [x] [] s (s.setReg x b) :=
  ⟨fun _ hr => State.reg_setReg_other s b (by simpa using hr), fun p _ => by cases p <;> simp [Part.Same]⟩

theorem frame_setI (s : State) (w : Word) : Frame [] [.index] s (s.setI w) :=
  ⟨fun _ _ => rfl, fun p hp => by cases p <;> simp [Part.Same] at hp ⊢⟩

theorem frame_setPc (s : State) (w : Word) : Frame [] [.pc] s (s.setPc w) :=
  ⟨fun _ _ => rfl, fun p hp => by cases p <;> simp [Part.Same] at hp ⊢⟩

theorem frame_setStack (s : State) (l : List Word) : Frame [] [.stack] s (s.setStack l) :=
  ⟨fun _ _ => rfl, fun p hp => by cases p <;> simp [Part.Same] at hp ⊢⟩

theorem frame_setDt (s : State) (b : Byte) : Frame [] [.delayTimer] s (s.setDt b) :=
  ⟨fun _ _ => rfl, fun p hp => by cases p <;> simp [Part.Same] at hp ⊢⟩

theorem frame_setSt (s : State) (b : Byte) : Frame [] [.soundTimer] s (s.setSt b) :=
  ⟨fun _ _ => rfl, fun p hp => by cases p <;> simp [Part.Same] at hp ⊢⟩

theorem frame_setMem (s : State) (m : Memory) : Frame [] [.memory] s (s.setMem m) :=
  ⟨fun _ _ => rfl, fun p hp => by cases p <;> simp [Part.Same] at hp ⊢⟩

theorem frame_setWait (s : State) (w : Option RegNum) : Frame [] [.wait] s (s.setWait w) :=
  ⟨fun _ _ => rfl, fun p hp => by cases p <;> simp [Part.Same] at hp ⊢⟩

theorem frame_setReady (s : State) (b : Bool) : Frame [] [.ready] s (s.setReady b) :=
  ⟨fun _ _ => rfl, fun p hp => by cases p <;> simp [Part.Same] at hp ⊢⟩

theorem frame_setHalt (s : State) (h : Option FaultRecord) : Frame [] [.halt] s (s.setHalt h) :=
  ⟨fun _ _ => rfl, fun p hp => by cases p <;> simp [Part.Same] at hp ⊢⟩

theorem frame_setFb (s : State) (fb : Framebuffer) : Frame [] [.display] s (s.setFb fb) :=
  ⟨fun _ _ => rfl, fun p hp => by cases p <;> simp [Part.Same] at hp ⊢⟩

theorem frame_setKey (s : State) (k : KeyCode) (b : Bool) : Frame [] [.keys] s (s.setKey k b) :=
  ⟨fun _ _ => rfl, fun p hp => by cases p <;> simp [Part.Same] at hp ⊢⟩

theorem frame_setCallback (s : State) (b : Bool) : Frame [] [.callback] s (s.setCallback b) :=
  ⟨fun _ _ => rfl, fun p hp => by cases p <;> simp [Part.Same] at hp ⊢⟩

theorem frame_setToneOn (s : State) (b : Bool) : Frame [] [.tone] s (s.setToneOn b) :=
  ⟨fun _ _ => rfl, fun p hp => by cases p <;> simp [Part.Same] at hp ⊢⟩

theorem frame_setInbox (s : State) (l : List Transaction) : Frame [] [.inbox] s (s.setInbox l) :=
  ⟨fun _ _ => rfl, fun p hp => by cases p <;> simp [Part.Same] at hp ⊢⟩

theorem frame_setBatch (s : State) (b : Option Nat) : Frame [] [.batch] s (s.setBatch b) :=
  ⟨fun _ _ => rfl, fun p hp => by cases p <;> simp [Part.Same] at hp ⊢⟩

theorem frame_setReply (s : State) (r : Option Reply) : Frame [] [.reply] s (s.setReply r) :=
  ⟨fun _ _ => rfl, fun p hp => by cases p <;> simp [Part.Same] at hp ⊢⟩

theorem frame_setToneCall (s : State) (c : Option ToneCall) : Frame [] [.toneCall] s (s.setToneCall c) :=
  ⟨fun _ _ => rfl, fun p hp => by cases p <;> simp [Part.Same] at hp ⊢⟩

theorem frame_setDraws (s : State) (k : Nat) : Frame [] [.draws] s (s.setDraws k) :=
  ⟨fun _ _ => rfl, fun p hp => by cases p <;> simp [Part.Same] at hp ⊢⟩

/-! ### The shared operations -/

/-- A bound check passes exactly when every address lies in memory. -/
theorem outOfRange_eq_none {base len : Nat} : outOfRange base len = none ↔ len = 0 ∨ base + len ≤ 4096 := by
  simp only [outOfRange, memSize]
  split
  · simp [*]
  · split <;> simp <;> omega

/-- A bound check that fails names the lowest address outside memory. -/
theorem outOfRange_eq_some {base len a : Nat} :
    outOfRange base len = some a ↔ len ≠ 0 ∧ 4096 < base + len ∧ a = max base 4096 := by
  simp only [outOfRange, memSize]
  split
  · simp [*]
  · split
    · simp only [Option.some.injEq]
      constructor
      · intro h; exact ⟨‹_›, by omega, h.symm⟩
      · intro h; exact h.2.2.symm
    · simp only [reduceCtorEq, false_iff]; omega

/-- Raising a fault halts the core with its record, ends the batch, and does nothing else. -/
theorem raise_haltsWith (kind : FaultKind) (pc : Word) (op : Option Word) (addr : Option Nat) (s : State) :
    HaltsWith { kind := kind, pc := pc, op := op, addr := addr } s (raise kind pc op addr s) :=
  ⟨rfl, rfl, rfl, (((frame_setHalt _ _).trans (frame_setBatch _ _)).trans (frame_setReply _ _)).weaken⟩

/-- A fault an instruction raises halts the core with its own record. -/
theorem raiseIn_haltsWith (i : Instr) (kind : FaultKind) (addr : Option Nat) (s : State) :
    HaltsWith (faultOf i kind addr s) s (raiseIn i kind addr s) :=
  raise_haltsWith _ _ _ _ _

/-- A skip changes PC alone: by 2, modulo 65536, if its condition holds. -/
theorem skipIf_spec (c : Bool) (s : State) :
    (skipIf c s).pc.toNat = (if c then (s.pc.toNat + 2) % 65536 else s.pc.toNat) ∧ Frame [] [.pc] s (skipIf c s) := by
  cases c
  · exact ⟨rfl, (Frame.refl s).weaken⟩
  · exact ⟨by simp [skipIf, BitVec.toNat_add], frame_setPc _ _⟩

/-- A list of stored bytes changes memory alone. -/
theorem frame_writeBytes (s : State) (a : Nat) (l : List Byte) : Frame [] [.memory] s (s.writeBytes a l) :=
  frame_setMem _ _

theorem frame_setFlag (s : State) (f : Byte) : Frame [vf] [] s (s.setFlag f) := frame_setReg s vf f

/-- A flag, then a result: only VF and the result's register change. -/
theorem frame_flag_then_reg (s : State) (f b : Byte) (x : RegNum) : Frame [x, vf] [] s ((s.setFlag f).setReg x b) :=
  ((frame_setFlag s f).trans (frame_setReg _ x b)).weaken (by simp)

/-! ### Reading what the transfers move -/

@[simp] theorem length_readBytes (s : State) (a len : Nat) : (s.readBytes a len).length = len := by
  simp [State.readBytes]

theorem getElem_readBytes (s : State) (a len k : Nat) (h : k < (s.readBytes a len).length) :
    (s.readBytes a len)[k] = s.readByte (a + k) := by
  simp [State.readBytes]

@[simp] theorem length_regsUpTo (s : State) (x : RegNum) : (s.regsUpTo x).length = x.val + 1 := by
  simp only [State.regsUpTo, List.length_take, Vector.length_toList]
  omega

theorem getElem_regsUpTo (s : State) (x r : RegNum) (h : r.val < (s.regsUpTo x).length) :
    (s.regsUpTo x)[r.val] = s.reg r := by
  simp [State.regsUpTo, State.reg]

/-- Loading bytes into registers from x on gives each its byte and leaves the others alone. -/
theorem getElem_loadInto (v : Vector Byte 16) (x : Nat) (l : List Byte) (hx : x + l.length ≤ 16) (r : Nat)
    (hr : r < 16) : (loadInto v x l)[r] = if h : x ≤ r ∧ r < x + l.length then l[r - x] else v[r] := by
  induction l generalizing v x with
  | nil => simp only [List.length_nil, Nat.add_zero, loadInto]; rw [dif_neg (by omega)]
  | cons b rest ih =>
    simp only [List.length_cons] at hx
    have hx16 : x < 16 := by omega
    simp only [loadInto, hx16, dite_true, List.length_cons]
    rw [ih _ _ (by omega)]
    rcases Nat.lt_trichotomy r x with h | h | h
    · rw [dif_neg (by omega), dif_neg (by omega)]
      exact Vector.getElem_set_ne hx16 hr (by omega)
    · subst h
      rw [dif_neg (by omega), dif_pos (by omega)]
      simp
    · by_cases h' : r < x + 1 + rest.length
      · rw [dif_pos (by omega), dif_pos (by omega)]
        simp [show r - x = r - (x + 1) + 1 by omega]
      · rw [dif_neg (by omega), dif_neg (by omega)]
        exact Vector.getElem_set_ne hx16 hr (by omega)

end Sys2Proof.Machine
end

