-- ==== Sys2Proof/Laws/Batch.lean ====
section
/-! SUPPORT. The batch's shared operations: a timer's tick, the tone gate, the gate of a batch, and what a pending
transaction and a cycling core step to. -/

namespace Sys2Proof.Machine

theorem ticked_toNat (b : Byte) : (ticked b).toNat = b.toNat - 1 := by
  unfold ticked
  split
  · have := b.isLt
    rw [BitVec.toNat_sub]
    change (256 - 1 + b.toNat) % 256 = b.toNat - 1
    omega
  · omega

@[simp] theorem tickTimers_dt (s : State) : (tickTimers s).dt = ticked s.dt := rfl

@[simp] theorem tickTimers_st (s : State) : (tickTimers s).st = ticked s.st := rfl

theorem frame_tickTimers (s : State) : Frame [] [.delayTimer, .soundTimer] s (tickTimers s) :=
  ((frame_setDt _ _).trans (frame_setSt _ _)).weaken

@[simp] theorem gateTone_dt (s : State) : (gateTone s).dt = s.dt := by unfold gateTone; split <;> rfl

@[simp] theorem gateTone_st (s : State) : (gateTone s).st = s.st := by unfold gateTone; split <;> rfl

/-- The tone plays exactly when ST is above 0. -/
@[simp] theorem gateTone_toneOn (s : State) : (gateTone s).toneOn = decide (0 < s.st.toNat) := by
  unfold gateTone
  split <;> simp [State.tonePlay, State.toneStop, *]

@[simp] theorem gateTone_toneCall (s : State) :
    (gateTone s).toneCall = some (if 0 < s.st.toNat then .play toneHz else .stop) := by
  unfold gateTone
  split <;> simp [State.tonePlay, State.toneStop]

theorem frame_gateTone (s : State) : Frame [] [.tone, .toneCall] s (gateTone s) := by
  unfold gateTone
  split
  · exact ((frame_setToneCall _ _).trans (frame_setToneOn _ _)).weaken
  · exact ((frame_setToneCall _ _).trans (frame_setToneOn _ _)).weaken

/-- A core that is loaded and not halted turns no batch away. -/
theorem batchRefusal_eq_none {s : State} : batchRefusal s = none ↔ s.halt = none ∧ s.ready = true := by
  unfold batchRefusal
  cases s.halt <;> cases s.ready <;> simp

/-! ### What a step is -/

/-- The step of a cycling core is one cycle, with one iteration fewer left. -/
theorem step_of_cycling {s : State} {left : Nat} (h : Cycling s left) : step s = cycle (s.setBatch (some left)) := by
  obtain ⟨hb, hr, hh, hw⟩ := h
  simp [step, hb, batchStep, batchRefusal_eq_none.mpr ⟨hh, hr⟩, iteration, hw]

/-- The step that ends a batch. -/
theorem step_of_batch_end {s : State} (hb : s.batch = some 0) (hr : s.ready = true) (hh : s.halt = none) :
    step s = .next (endOfBatch s) := by
  simp [step, hb, batchStep, batchRefusal_eq_none.mpr ⟨hh, hr⟩]

/-- The step of a core with a pending transaction performs it. -/
theorem step_of_pending {s : State} {t : Transaction} (h : Pending t s) :
    step s = .next (perform t (s.setInbox s.inbox.tail)) := by
  obtain ⟨hb, hi⟩ := h
  simp only [step, hb, hostStep]
  cases hx : s.inbox with
  | nil => simp [hx] at hi
  | cons a r =>
    simp only [hx, List.head?_cons, Option.some.injEq] at hi
    simp [hi]

end Sys2Proof.Machine
end

