-- ==== Sys2Proof/Laws/Display.lean ====
section
/-! SUPPORT. What drawing does: a set of pixels is toggled, and the hit bit is raised exactly when one of them was on. -/

namespace Sys2Proof.Machine

/-! ### Toggling one pixel -/

theorem pixel_toggle (fb : Framebuffer) (px p : Fin 64) (py q : Fin 32) :
    Framebuffer.pixel (Framebuffer.toggle fb px py).1 p q =
      if p = px ∧ q = py then !Framebuffer.pixel fb px py else Framebuffer.pixel fb p q := by
  simp only [Framebuffer.toggle, Framebuffer.pixel, Vector.getElem_set]
  by_cases hp : p = px
  · subst hp
    by_cases hq : q = py
    · subst hq; simp
    · simp [hq, Fin.val_ne_of_ne (Ne.symm hq)]
  · simp [hp, Fin.val_ne_of_ne (Ne.symm hp)]

/-! ### Toggling a set of pixels -/

/-- From `a` to `b`, pixels paired with a hit bit, exactly the pixels in P are toggled, and the hit bit is raised exactly
when one of them was on. -/
structure Drew (P : Fin 64 → Fin 32 → Prop) (a b : Framebuffer × Bool) : Prop where
  toggles : ∀ p q, Framebuffer.pixel b.1 p q ≠ Framebuffer.pixel a.1 p q ↔ P p q
  hits : b.2 = true ↔ a.2 = true ∨ ∃ p q, P p q ∧ Framebuffer.pixel a.1 p q = true

theorem Drew.congr {P Q : Fin 64 → Fin 32 → Prop} {a b : Framebuffer × Bool} (h : Drew P a b)
    (hPQ : ∀ p q, P p q ↔ Q p q) : Drew Q a b :=
  ⟨fun p q => (h.toggles p q).trans (hPQ p q), by simpa [hPQ] using h.hits⟩

theorem Drew.refl (a : Framebuffer × Bool) : Drew (fun _ _ => False) a a := ⟨by simp, by simp⟩

/-- Drawing one disjoint set of pixels after another draws both. -/
theorem Drew.comp {P Q : Fin 64 → Fin 32 → Prop} {a b c : Framebuffer × Bool} (h1 : Drew P a b) (h2 : Drew Q b c)
    (hdisj : ∀ p q, P p q → ¬Q p q) : Drew (fun p q => P p q ∨ Q p q) a c := by
  have hsame : ∀ p q, Q p q → Framebuffer.pixel b.1 p q = Framebuffer.pixel a.1 p q := by
    intro p q hQ
    by_contra hne
    exact hdisj p q ((h1.toggles p q).mp hne) hQ
  constructor
  · intro p q
    have t1 := h1.toggles p q
    have t2 := h2.toggles p q
    have hd := hdisj p q
    by_cases hP : P p q
    · have := hd hP
      simp_all
    · by_cases hQ : Q p q
      · simp_all
      · simp_all
  · rw [h2.hits, h1.hits]
    constructor
    · rintro ((h | ⟨p, q, hP, hon⟩) | ⟨p, q, hQ, hon⟩)
      · exact .inl h
      · exact .inr ⟨p, q, .inl hP, hon⟩
      · exact .inr ⟨p, q, .inr hQ, by rw [← hsame p q hQ]; exact hon⟩
    · rintro (h | ⟨p, q, hP | hQ, hon⟩)
      · exact .inl (.inl h)
      · exact .inl (.inr ⟨p, q, hP, hon⟩)
      · exact .inr ⟨p, q, hQ, by rw [hsame p q hQ]; exact hon⟩

/-! ### Sprites -/

/-- The pixel a sprite's column `col` reaches in its row `row`, if that bit of the sprite is 1. -/
def BitCovers (cx cy row : Nat) (sprite : Byte) (col : Nat) (p : Fin 64) (q : Fin 32) : Prop :=
  spriteBit sprite col = true ∧ p.val = (cx + col) % 64 ∧ q.val = (cy + row) % 32

theorem drew_drawPixel (cx cy row : Nat) (sprite : Byte) (acc : Framebuffer × Bool) (col : Nat) :
    Drew (BitCovers cx cy row sprite col) acc (drawPixel cx cy row sprite acc col) := by
  unfold drawPixel
  split
  · rename_i hbit
    have hcov : ∀ p q, BitCovers cx cy row sprite col p q ↔
        p = Fin.ofNat 64 (cx + col) ∧ q = Fin.ofNat 32 (cy + row) := by
      intro p q
      simp [BitCovers, hbit, Fin.ext_iff, Fin.ofNat]
    constructor
    · intro p q
      rw [hcov, pixel_toggle]
      split
      · rename_i h
        simp [h]
      · simp_all
    · simp only [Bool.or_eq_true, hcov]
      simp [Framebuffer.toggle]
  · rename_i hbit
    exact (Drew.refl acc).congr (by simp [BitCovers, hbit])

/-- A row of a sprite toggles the pixels its 1 bits reach. -/
theorem drew_drawRow (cx cy row : Nat) (sprite : Byte) (acc : Framebuffer × Bool) :
    Drew (fun p q => ∃ col < 8, BitCovers cx cy row sprite col p q) acc (drawRow cx cy row sprite acc) := by
  suffices h : ∀ k ≤ 8, Drew (fun p q => ∃ col < k, BitCovers cx cy row sprite col p q) acc
      ((List.range k).foldl (drawPixel cx cy row sprite) acc) from h 8 (by decide)
  intro k
  induction k with
  | zero => intro _; exact (Drew.refl acc).congr (by simp)
  | succ k ih =>
    intro hk
    rw [List.range_succ, List.foldl_append]
    refine ((ih (by omega)).comp (drew_drawPixel cx cy row sprite _ k) ?_).congr ?_
    · rintro p q ⟨col, hcol, -, hp, -⟩ ⟨-, hp', -⟩
      omega
    · intro p q
      constructor
      · rintro (⟨col, hcol, h⟩ | h)
        · exact ⟨col, by omega, h⟩
        · exact ⟨k, by omega, h⟩
      · rintro ⟨col, hcol, h⟩
        rcases Nat.lt_or_ge col k with hlt | hge
        · exact .inl ⟨col, hlt, h⟩
        · obtain rfl : col = k := by omega
          exact .inr h

/-- Rows of a sprite, at most 32 of them, toggle the pixels their 1 bits reach. -/
theorem drew_drawRows (cx cy row : Nat) (l : List Byte) (acc : Framebuffer × Bool) (hl : l.length ≤ 32) :
    Drew (fun p q => ∃ k, ∃ h : k < l.length, ∃ col < 8, BitCovers cx cy (row + k) l[k] col p q) acc
      (drawRows cx cy row l acc) := by
  induction l generalizing row acc with
  | nil => exact (Drew.refl acc).congr (by simp)
  | cons sprite rest ih =>
    simp only [List.length_cons] at hl
    refine ((drew_drawRow cx cy row sprite acc).comp (ih (row + 1) _ (by omega)) ?_).congr ?_
    · rintro p q ⟨c, -, -, -, hq⟩ ⟨k, hk, c', -, -, -, hq'⟩
      omega
    · intro p q
      constructor
      · rintro (⟨c, hc, h⟩ | ⟨k, hk, c, hc, h⟩)
        · exact ⟨0, by simp, c, hc, by simpa using h⟩
        · exact ⟨k + 1, by simpa using hk, c, hc, by simpa [Nat.add_comm, Nat.add_left_comm] using h⟩
      · rintro ⟨k, hk, c, hc, h⟩
        cases k with
        | zero => exact .inl ⟨c, hc, by simpa using h⟩
        | succ k =>
          exact .inr ⟨k, by simpa using hk, c, hc, by simpa [Nat.add_comm, Nat.add_left_comm] using h⟩

end Sys2Proof.Machine
end

