-- ==== Sys2Proof/Laws/Encoding.lean ====
section
/-! SUPPORT. Fields of an opcode word, what the four formats' words hold, and what the opcode table's masks keep. -/

namespace Sys2Proof

/-! ### The formats' words as numbers -/

theorem formatNNN_toNat {p : Nat} {nnn : Word} (hp : p < 16) (h : addressFits nnn = true) :
    (formatNNN p nnn).toNat = p * 4096 + nnn.toNat := by
  simp only [addressFits, decide_eq_true_eq] at h
  simp only [formatNNN, BitVec.toNat_ofNat]
  omega

theorem formatXKK_toNat {p : Nat} {x : RegNum} {kk : Byte} (hp : p < 16) :
    (formatXKK p x kk).toNat = p * 4096 + x.val * 256 + kk.toNat := by
  have := kk.isLt
  simp only [formatXKK, BitVec.toNat_ofNat]
  omega

theorem formatXYN_toNat {p low : Nat} {x y : RegNum} (hp : p < 16) (hl : low < 16) :
    (formatXYN p x y low).toNat = p * 4096 + x.val * 256 + y.val * 16 + low := by
  simp only [formatXYN, BitVec.toNat_ofNat]
  omega

theorem formatXF_toNat {p f : Nat} {x : RegNum} (hp : p < 16) (hf : f < 256) :
    (formatXF p x f).toNat = p * 4096 + x.val * 256 + f := by
  simp only [formatXF, BitVec.toNat_ofNat]
  omega

/-! ### The fields as numbers -/

theorem bits_15_12 (op : Word) : bits op 15 12 = op.toNat / 4096 := by
  have := op.isLt
  simp only [bits, Nat.reduceAdd, Nat.reduceSub, Nat.reducePow]
  omega

theorem bits_3_0 (op : Word) : bits op 3 0 = op.toNat % 16 := by simp [bits]

theorem bits_7_0 (op : Word) : bits op 7 0 = op.toNat % 256 := by simp [bits]

theorem fieldX_val (op : Word) : (fieldX op).val = op.toNat / 256 % 16 := by
  simp [fieldX, bits, Fin.ofNat]

theorem fieldY_val (op : Word) : (fieldY op).val = op.toNat / 16 % 16 := by
  simp [fieldY, bits, Fin.ofNat]

theorem fieldN_eq (op : Word) : fieldN op = op.toNat % 16 := by simp [fieldN, bits]

theorem fieldKK_toNat (op : Word) : (fieldKK op).toNat = op.toNat % 256 := by simp [fieldKK, bits]

theorem fieldNNN_toNat (op : Word) : (fieldNNN op).toNat = op.toNat % 4096 := by
  have : op.toNat % 4096 < 4096 := Nat.mod_lt _ (by decide)
  simp only [fieldNNN, bits, Nat.reduceAdd, Nat.reduceSub, Nat.reducePow, Nat.div_one, BitVec.toNat_ofNat]
  omega

/-! ### Bytes of a word -/

theorem joinBytes_toNat (hi lo : Byte) : (joinBytes hi lo).toNat = hi.toNat * 256 + lo.toNat := by
  have := hi.isLt
  have := lo.isLt
  simp only [joinBytes, BitVec.toNat_ofNat]
  omega

@[simp] theorem joinBytes_high_low (w : Word) : joinBytes (highByte w) (lowByte w) = w := by
  have := w.isLt
  apply BitVec.eq_of_toNat_eq
  rw [joinBytes_toNat]
  simp only [highByte, lowByte, BitVec.toNat_ofNat]
  omega

theorem decode_two (hi lo : Byte) (rest : List Byte) :
    decode (hi :: lo :: rest) = (decodeWord (joinBytes hi lo)).map (fun i => (i, rest)) := rfl

/-! ### What the masks of the opcode table keep -/

theorem and_F000 (w : Word) : (w &&& 0xF000).toNat = w.toNat / 4096 * 4096 := by
  have hw := w.isLt
  have h : w.toNat = 2 ^ 12 * (w.toNat / 4096) + w.toNat % 4096 := by omega
  have hq : w.toNat / 4096 < 2 ^ 4 := by omega
  have hand : w.toNat / 4096 &&& 15 = w.toNat / 4096 := by
    rw [show (15 : Nat) = 2 ^ 4 - 1 by decide, Nat.and_two_pow_sub_one_eq_mod]
    exact Nat.mod_eq_of_lt hq
  rw [BitVec.toNat_and, show (0xF000 : Word).toNat = 2 ^ 12 * 15 by decide]
  apply Nat.eq_of_testBit_eq
  intro j
  rw [Nat.testBit_and, Nat.testBit_two_pow_mul, Nat.mul_comm (w.toNat / 4096), show (4096 : Nat) = 2 ^ 12 by decide,
    Nat.testBit_two_pow_mul, Nat.testBit_div_two_pow]
  by_cases hj : 12 ≤ j
  · have hb : (w.toNat / 2 ^ 12).testBit (j - 12) = w.toNat.testBit j := by
      rw [Nat.testBit_div_two_pow, Nat.sub_add_cancel hj]
    have hb' := congrArg (fun m => m.testBit (j - 12)) hand
    simp only [Nat.testBit_and] at hb'
    rw [show w.toNat / 4096 = w.toNat / 2 ^ 12 by norm_num, hb] at hb'
    simp [hj, hb']
  · simp [hj]

theorem and_low (w : Word) {k : Nat} (m : Word) (hm : m.toNat = 2 ^ k - 1) :
    (w &&& m).toNat = w.toNat % 2 ^ k := by
  rw [BitVec.toNat_and, hm, Nat.and_two_pow_sub_one_eq_mod]

theorem and_split (w lo : Word) {k : Nat} (hk : k ≤ 12) (hlo : lo.toNat = 2 ^ k - 1) :
    (w &&& (0xF000 ||| lo)).toNat = w.toNat / 4096 * 4096 + w.toNat % 2 ^ k := by
  have hd : w &&& (0xF000 ||| lo) = (w &&& 0xF000) ||| (w &&& lo) := by
    apply BitVec.eq_of_getLsbD_eq
    intro i _
    simp only [BitVec.getLsbD_and, BitVec.getLsbD_or]
    cases w.getLsbD i <;> cases (0xF000#16).getLsbD i <;> cases lo.getLsbD i <;> rfl
  have hlt : w.toNat % 2 ^ k < 2 ^ 12 :=
    Nat.lt_of_lt_of_le (Nat.mod_lt _ (Nat.two_pow_pos k)) (Nat.pow_le_pow_right (by decide) hk)
  rw [hd, BitVec.toNat_or, and_F000, and_low w lo hlo, Nat.mul_comm, show (4096 : Nat) = 2 ^ 12 by decide,
    ← Nat.two_pow_add_eq_or_of_lt hlt]

theorem and_F00F (w : Word) : (w &&& 0xF00F).toNat = w.toNat / 4096 * 4096 + w.toNat % 16 :=
  and_split w 0x000F (k := 4) (by decide) (by decide)

theorem and_F0FF (w : Word) : (w &&& 0xF0FF).toNat = w.toNat / 4096 * 4096 + w.toNat % 256 :=
  and_split w 0x00FF (k := 8) (by decide) (by decide)

theorem and_FFFF (w : Word) : w &&& 0xFFFF = w := by
  apply BitVec.eq_of_toNat_eq
  rw [and_low w 0xFFFF (k := 16) (by decide)]
  exact Nat.mod_eq_of_lt w.isLt

end Sys2Proof
end

