-- ==== Sys2Proof/Laws/PerInstr.lean ====
section
/-! SUPPORT. The family InRow: the word of a well-formed instruction lies in its own row of the opcode table. -/

namespace Sys2Proof.Laws.InRow

/-- The encoding of a well-formed instruction agrees with its row's match on the bits of its row's mask. -/
def Statement (i : Instr) : Prop := i.wellFormed = true → i.row.covers (encode i) = true

/-! ### One lemma per format -/

theorem of_format_NNN {p : Nat} {nnn : Word} (hp : p < 16) (h : addressFits nnn = true) :
    formatNNN p nnn &&& 0xF000 = BitVec.ofNat 16 (p * 4096) := by
  have h' := h
  simp only [addressFits, decide_eq_true_eq] at h'
  apply BitVec.eq_of_toNat_eq
  rw [and_F000, formatNNN_toNat hp h, BitVec.toNat_ofNat]
  omega

theorem of_format_XKK {p : Nat} {x : RegNum} {kk : Byte} (hp : p < 16) :
    formatXKK p x kk &&& 0xF000 = BitVec.ofNat 16 (p * 4096) := by
  have := kk.isLt
  apply BitVec.eq_of_toNat_eq
  rw [and_F000, formatXKK_toNat hp, BitVec.toNat_ofNat]
  omega

theorem of_format_XYN {p n : Nat} {x y : RegNum} (hp : p < 16) (hn : n < 16) :
    formatXYN p x y n &&& 0xF000 = BitVec.ofNat 16 (p * 4096) := by
  apply BitVec.eq_of_toNat_eq
  rw [and_F000, formatXYN_toNat hp hn, BitVec.toNat_ofNat]
  omega

theorem of_format_XYF {p f : Nat} {x y : RegNum} (hp : p < 16) (hf : f < 16) :
    formatXYN p x y f &&& 0xF00F = BitVec.ofNat 16 (p * 4096 + f) := by
  apply BitVec.eq_of_toNat_eq
  rw [and_F00F, formatXYN_toNat hp hf, BitVec.toNat_ofNat]
  omega

theorem of_format_XF {p f : Nat} {x : RegNum} (hp : p < 16) (hf : f < 256) :
    formatXF p x f &&& 0xF0FF = BitVec.ofNat 16 (p * 4096 + f) := by
  apply BitVec.eq_of_toNat_eq
  rw [and_F0FF, formatXF_toNat hp hf, BitVec.toNat_ofNat]
  omega

/-! ### One lemma per constructor -/

theorem cls : Statement .cls := fun _ => rfl

theorem ret : Statement .ret := fun _ => rfl

theorem jp (nnn : Word) : Statement (.jp nnn) :=
  fun h => decide_eq_true (of_format_NNN (by decide) h)

theorem call (nnn : Word) : Statement (.call nnn) :=
  fun h => decide_eq_true (of_format_NNN (by decide) h)

theorem seImm (x : RegNum) (kk : Byte) : Statement (.seImm x kk) :=
  fun _ => decide_eq_true (of_format_XKK (by decide))

theorem sneImm (x : RegNum) (kk : Byte) : Statement (.sneImm x kk) :=
  fun _ => decide_eq_true (of_format_XKK (by decide))

theorem seReg (x y : RegNum) : Statement (.seReg x y) :=
  fun _ => decide_eq_true (of_format_XYF (by decide) (by decide))

theorem ldImm (x : RegNum) (kk : Byte) : Statement (.ldImm x kk) :=
  fun _ => decide_eq_true (of_format_XKK (by decide))

theorem addImm (x : RegNum) (kk : Byte) : Statement (.addImm x kk) :=
  fun _ => decide_eq_true (of_format_XKK (by decide))

theorem ldReg (x y : RegNum) : Statement (.ldReg x y) :=
  fun _ => decide_eq_true (of_format_XYF (by decide) (by decide))

theorem orReg (x y : RegNum) : Statement (.orReg x y) :=
  fun _ => decide_eq_true (of_format_XYF (by decide) (by decide))

theorem andReg (x y : RegNum) : Statement (.andReg x y) :=
  fun _ => decide_eq_true (of_format_XYF (by decide) (by decide))

theorem xorReg (x y : RegNum) : Statement (.xorReg x y) :=
  fun _ => decide_eq_true (of_format_XYF (by decide) (by decide))

theorem addReg (x y : RegNum) : Statement (.addReg x y) :=
  fun _ => decide_eq_true (of_format_XYF (by decide) (by decide))

theorem subReg (x y : RegNum) : Statement (.subReg x y) :=
  fun _ => decide_eq_true (of_format_XYF (by decide) (by decide))

theorem shr (x y : RegNum) : Statement (.shr x y) :=
  fun _ => decide_eq_true (of_format_XYF (by decide) (by decide))

theorem subnReg (x y : RegNum) : Statement (.subnReg x y) :=
  fun _ => decide_eq_true (of_format_XYF (by decide) (by decide))

theorem shl (x y : RegNum) : Statement (.shl x y) :=
  fun _ => decide_eq_true (of_format_XYF (by decide) (by decide))

theorem sneReg (x y : RegNum) : Statement (.sneReg x y) :=
  fun _ => decide_eq_true (of_format_XYF (by decide) (by decide))

theorem ldI (nnn : Word) : Statement (.ldI nnn) :=
  fun h => decide_eq_true (of_format_NNN (by decide) h)

theorem jpV0 (nnn : Word) : Statement (.jpV0 nnn) :=
  fun h => decide_eq_true (of_format_NNN (by decide) h)

theorem rnd (x : RegNum) (kk : Byte) : Statement (.rnd x kk) :=
  fun _ => decide_eq_true (of_format_XKK (by decide))

theorem drw (x y : RegNum) (n : Nat) : Statement (.drw x y n) :=
  fun h => decide_eq_true (of_format_XYN (by decide) (by simpa [Instr.wellFormed, heightFits] using h))

theorem skp (x : RegNum) : Statement (.skp x) :=
  fun _ => decide_eq_true (of_format_XF (by decide) (by decide))

theorem sknp (x : RegNum) : Statement (.sknp x) :=
  fun _ => decide_eq_true (of_format_XF (by decide) (by decide))

theorem ldVxDt (x : RegNum) : Statement (.ldVxDt x) :=
  fun _ => decide_eq_true (of_format_XF (by decide) (by decide))

theorem ldVxK (x : RegNum) : Statement (.ldVxK x) :=
  fun _ => decide_eq_true (of_format_XF (by decide) (by decide))

theorem ldDtVx (x : RegNum) : Statement (.ldDtVx x) :=
  fun _ => decide_eq_true (of_format_XF (by decide) (by decide))

theorem ldStVx (x : RegNum) : Statement (.ldStVx x) :=
  fun _ => decide_eq_true (of_format_XF (by decide) (by decide))

theorem addI (x : RegNum) : Statement (.addI x) :=
  fun _ => decide_eq_true (of_format_XF (by decide) (by decide))

theorem ldF (x : RegNum) : Statement (.ldF x) :=
  fun _ => decide_eq_true (of_format_XF (by decide) (by decide))

theorem ldB (x : RegNum) : Statement (.ldB x) :=
  fun _ => decide_eq_true (of_format_XF (by decide) (by decide))

theorem storeRegs (x : RegNum) : Statement (.storeRegs x) :=
  fun _ => decide_eq_true (of_format_XF (by decide) (by decide))

theorem loadRegs (x : RegNum) : Statement (.loadRegs x) :=
  fun _ => decide_eq_true (of_format_XF (by decide) (by decide))

end Sys2Proof.Laws.InRow
end

