-- ==== Sys2Proof/Laws/Step.lean ====
section
/-! SUPPORT. All that a step can do: it always answers a next state, and which one. -/

namespace Sys2Proof.Machine

theorem exec_answers_next (i : Instr) (s : State) : ∃ t, exec i s = .next t := by
  cases i <;> simp only [exec]
  case ret => unfold execRet; split <;> exact ⟨_, rfl⟩
  case call => unfold execCall; split <;> exact ⟨_, rfl⟩
  case drw => unfold execDrw; split <;> exact ⟨_, rfl⟩
  case ldB => unfold execLdB; split <;> exact ⟨_, rfl⟩
  case storeRegs => unfold execStoreRegs; split <;> exact ⟨_, rfl⟩
  case loadRegs => unfold execLoadRegs; split <;> exact ⟨_, rfl⟩
  case skp => unfold execSkp; split <;> exact ⟨_, rfl⟩
  case sknp => unfold execSknp; split <;> exact ⟨_, rfl⟩
  all_goals exact ⟨_, rfl⟩

theorem cycle_answers_next (s : State) : ∃ t, cycle s = .next t := by
  unfold cycle decodeAndExecute
  split
  · exact ⟨_, rfl⟩
  · split
    · exact ⟨_, rfl⟩
    · exact exec_answers_next _ _

theorem step_answers_next (s : State) : ∃ t, step s = .next t := by
  unfold step batchStep hostStep iteration
  repeat' split
  all_goals first | exact ⟨_, rfl⟩ | exact cycle_answers_next _

/-- All that a cycle can do: a fetch fault, an unknown opcode, or the decoded instruction with PC two higher. -/
theorem cycle_cases {s t : State} (h : cycle s = .next t) :
    (∃ addr, outOfRange s.pc.toNat 2 = some addr ∧ t = raise .addressOutOfRange s.pc none (some addr) s) ∨
    (outOfRange s.pc.toNat 2 = none ∧ (∃ e, decodeWord (fetchWord s) = .error e) ∧
      t = raise .unknownOpcode (preIncrement s).opcodeAddress (some (fetchWord s)) none (preIncrement s)) ∨
    (outOfRange s.pc.toNat 2 = none ∧ ∃ i, decodeWord (fetchWord s) = .ok i ∧ exec i (preIncrement s) = .next t) := by
  unfold cycle at h
  split at h
  · cases h
    exact .inl ⟨_, ‹_›, rfl⟩
  · refine .inr ?_
    unfold decodeAndExecute at h
    split at h
    · cases h
      exact .inl ⟨‹_›, ⟨_, ‹_›⟩, rfl⟩
    · exact .inr ⟨‹_›, _, ‹_›, h⟩

/-- All that a step can do: turn a batch away, end it, run or pass one of its iterations, idle, or perform the next
pending transaction. -/
theorem step_cases {s t : State} (h : step s = .next t) :
    (∃ k r, s.batch = some k ∧ batchRefusal s = some r ∧ t = (s.setBatch none).setReply (some r)) ∨
    (s.batch = some 0 ∧ batchRefusal s = none ∧ t = endOfBatch s) ∨
    (∃ k, s.batch = some (k + 1) ∧ batchRefusal s = none ∧
      ((s.wait = none ∧ cycle (s.setBatch (some k)) = .next t) ∨ (s.wait ≠ none ∧ t = s.setBatch (some k)))) ∨
    (s.batch = none ∧ s.inbox = [] ∧ t = s) ∨
    (∃ a rest, s.batch = none ∧ s.inbox = a :: rest ∧ t = perform a (s.setInbox rest)) := by
  unfold step at h
  split at h
  · rename_i k hk
    unfold batchStep at h
    split at h
    · cases h
      exact .inl ⟨k, _, hk, ‹_›, rfl⟩
    · split at h
      · cases h
        exact .inr (.inl ⟨hk, ‹_›, rfl⟩)
      · refine .inr (.inr (.inl ⟨_, hk, ‹_›, ?_⟩))
        unfold iteration at h
        split at h
        · rename_i hw
          exact .inl ⟨by simpa using hw, h⟩
        · rename_i hw
          cases h
          exact .inr ⟨by simpa using hw, rfl⟩
  · refine .inr (.inr (.inr ?_))
    unfold hostStep at h
    split at h
    · cases h
      exact .inl ⟨‹_›, ‹_›, rfl⟩
    · cases h
      exact .inr ⟨_, _, ‹_›, ‹_›, rfl⟩

end Sys2Proof.Machine
end

