-- ==== Sys2Proof/Tests/Slice0.lean ====
section
/-! SUPPORT. Tests. Expected results are the spec's: the vectors of 95_test_vectors.md, named in each comment, and
words written out from the encoding lines of the rules. Then the witnesses of the claims' hypotheses. -/

namespace Sys2Proof.Tests

open Sys2Proof.Machine

/-! ### WellFormed: each check refuses an ill-formed term, and takes the largest operand (R83) -/

theorem test_wellFormed_jp : (Instr.jp 0x1000).wellFormed = false ∧ (Instr.jp 0xFFF).wellFormed = true := by decide

theorem test_wellFormed_call : (Instr.call 0x1000).wellFormed = false ∧ (Instr.call 0xFFF).wellFormed = true := by
  decide

theorem test_wellFormed_ldI : (Instr.ldI 0xFFFF).wellFormed = false ∧ (Instr.ldI 0xFFF).wellFormed = true := by decide

theorem test_wellFormed_jpV0 : (Instr.jpV0 0x1000).wellFormed = false ∧ (Instr.jpV0 0xFFF).wellFormed = true := by
  decide

theorem test_wellFormed_drw : (Instr.drw 0 0 16).wellFormed = false ∧ (Instr.drw 15 15 15).wellFormed = true := by
  decide

/-! ### Decoding: the bits of each rule's encoding line, with x = 1010, y = 0011, kk = 11000001, nnn = 010010101110 -/

theorem test_decode_flow :
    decodeTableWord 16 0b0000000011101110 = some .ret ∧
    decodeTableWord 16 0b0001010010101110 = some (.jp 0x4AE) ∧
    decodeTableWord 16 0b0010010010101110 = some (.call 0x4AE) ∧
    decodeTableWord 16 0b0011101011000001 = some (.seImm 0xA 0xC1) ∧
    decodeTableWord 16 0b0100101011000001 = some (.sneImm 0xA 0xC1) ∧
    decodeTableWord 16 0b0101101000110000 = some (.seReg 0xA 0x3) ∧
    decodeTableWord 16 0b1001101000110000 = some (.sneReg 0xA 0x3) ∧
    decodeTableWord 16 0b1011010010101110 = some (.jpV0 0x4AE) := by decide

theorem test_decode_alu :
    decodeTableWord 16 0b0110101011000001 = some (.ldImm 0xA 0xC1) ∧
    decodeTableWord 16 0b0111101011000001 = some (.addImm 0xA 0xC1) ∧
    decodeTableWord 16 0b1000101000110000 = some (.ldReg 0xA 0x3) ∧
    decodeTableWord 16 0b1000101000110001 = some (.orReg 0xA 0x3) ∧
    decodeTableWord 16 0b1000101000110010 = some (.andReg 0xA 0x3) ∧
    decodeTableWord 16 0b1000101000110011 = some (.xorReg 0xA 0x3) ∧
    decodeTableWord 16 0b1000101000110100 = some (.addReg 0xA 0x3) ∧
    decodeTableWord 16 0b1000101000110101 = some (.subReg 0xA 0x3) ∧
    decodeTableWord 16 0b1000101000110110 = some (.shr 0xA 0x3) ∧
    decodeTableWord 16 0b1000101000110111 = some (.subnReg 0xA 0x3) ∧
    decodeTableWord 16 0b1000101000111110 = some (.shl 0xA 0x3) ∧
    decodeTableWord 16 0b1100101011000001 = some (.rnd 0xA 0xC1) := by decide

theorem test_decode_index_memory :
    decodeTableWord 16 0b1010010010101110 = some (.ldI 0x4AE) ∧
    decodeTableWord 16 0b1111101000011110 = some (.addI 0xA) ∧
    decodeTableWord 16 0b1111101000101001 = some (.ldF 0xA) ∧
    decodeTableWord 16 0b1111101000110011 = some (.ldB 0xA) ∧
    decodeTableWord 16 0b1111101001010101 = some (.storeRegs 0xA) ∧
    decodeTableWord 16 0b1111101001100101 = some (.loadRegs 0xA) := by decide

theorem test_decode_display :
    decodeTableWord 16 0b0000000011100000 = some .cls ∧
    decodeTableWord 16 0b1101101000110110 = some (.drw 0xA 0x3 6) := by decide

theorem test_decode_keys_timers :
    decodeTableWord 16 0b1110101010011110 = some (.skp 0xA) ∧
    decodeTableWord 16 0b1110101010100001 = some (.sknp 0xA) ∧
    decodeTableWord 16 0b1111101000000111 = some (.ldVxDt 0xA) ∧
    decodeTableWord 16 0b1111101000001010 = some (.ldVxK 0xA) ∧
    decodeTableWord 16 0b1111101000010101 = some (.ldDtVx 0xA) ∧
    decodeTableWord 16 0b1111101000011000 = some (.ldStVx 0xA) := by decide

/-- E3, E4, E5, E11, E12, and A36, K11. -/
theorem test_decode_unknown :
    decodeTableWord 16 0x0000 = none ∧ decodeTableWord 16 0x0123 = none ∧ decodeTableWord 16 0x00E1 = none ∧
    decodeTableWord 16 0x5AB1 = none ∧ decodeTableWord 16 0xF01F = none ∧ decodeTableWord 16 0x8128 = none ∧
    decodeTableWord 16 0xE1A2 = none := by decide

/-! ### One step each -/

/-- The state one step leads to. -/
def next (s : State) : State :=
  match step s with
  | .next t => t
  | _ => s

/-- The state after one cycle that runs the word w, placed at PC. -/
def run (s : State) (w : Nat) : State := next (s.withFetchWord 16 w)

/-- The vectors' start state: construction, ready. -/
def start : State := State.reset.setReady true

/-- What a fault leaves in the record. -/
def recorded (s : State) (kind : FaultKind) (pc : Word) (op : Option Word) (addr : Option Nat) : Bool :=
  s.halt = some { kind := kind, pc := pc, op := op, addr := addr } && s.batch = none && s.reply = some .halted

/-- F1. -/
theorem test_ret : (run ((start.setPc 0x300).setStack [0x204]) 0x00EE).pc = 0x204 ∧
    (run ((start.setPc 0x300).setStack [0x204]) 0x00EE).stack = [] := by decide

/-- F2. -/
theorem test_ret_underflow : recorded (run (start.setPc 0x300) 0x00EE) .stackUnderflow 0x300 (some 0x00EE) none ∧
    (run (start.setPc 0x300) 0x00EE).pc = 0x302 := by decide

/-- F4. -/
theorem test_jp : (run start 0x1FFF).pc = 0xFFF := by decide

/-- F7. -/
theorem test_call : (run (start.setStack (List.replicate 15 0x202)) 0x2300).pc = 0x300 ∧
    (run (start.setStack (List.replicate 15 0x202)) 0x2300).stack = List.replicate 16 0x202 := by decide

/-- F6. -/
theorem test_call_overflow :
    recorded (run (start.setStack (List.replicate 16 0x202)) 0x2300) .stackOverflow 0x200 (some 0x2300) none ∧
    (run (start.setStack (List.replicate 16 0x202)) 0x2300).stack.length = 16 := by decide

/-- F8, F9, F20. -/
theorem test_seImm : (run (start.setReg 3 0x42) 0x3342).pc = 0x204 ∧ (run (start.setReg 3 0x41) 0x3342).pc = 0x202 ∧
    (run ((start.setPc 0xFFC).setReg 5 0x09) 0x3509).pc = 0x1000 := by decide

/-- F10, F11. -/
theorem test_sneImm : (run (start.setReg 3 0x41) 0x4342).pc = 0x204 ∧ (run (start.setReg 3 0x42) 0x4342).pc = 0x202 := by
  decide

/-- F12, F13. -/
theorem test_seReg : (run ((start.setReg 1 7).setReg 2 7) 0x5120).pc = 0x204 ∧
    (run ((start.setReg 1 7).setReg 2 8) 0x5120).pc = 0x202 := by decide

/-- F15, F16. -/
theorem test_sneReg : (run ((start.setReg 1 7).setReg 2 8) 0x9120).pc = 0x204 ∧
    (run ((start.setReg 1 7).setReg 2 7) 0x9120).pc = 0x202 := by decide

/-- F18, F19. -/
theorem test_jpV0 : (run (start.setReg 0 0x10) 0xB300).pc = 0x310 ∧ (run (start.setReg 0 0xFF) 0xBF01).pc = 0x1000 := by
  decide

/-- A1. -/
theorem test_ldImm : (run start 0x6A42).reg 0xA = 0x42 ∧ (run start 0x6A42).pc = 0x202 := by decide

/-- A2, A3. -/
theorem test_addImm : (run (start.setReg 0 0xFE) 0x7003).reg 0 = 0x01 ∧ (run (start.setReg 0 0xFE) 0x7003).reg vf = 0 ∧
    (run (start.setReg vf 0xFE) 0x7F03).reg vf = 0x01 := by decide

/-- A4. -/
theorem test_ldReg : (run (start.setReg 2 0x33) 0x8120).reg 1 = 0x33 := by decide

/-- A5. -/
theorem test_orReg : (run ((start.setReg 1 0xF0).setReg 2 0x0F) 0x8121).reg 1 = 0xFF := by decide

/-- A6. -/
theorem test_andReg : (run ((start.setReg 1 0xF0).setReg 2 0x3C) 0x8122).reg 1 = 0x30 := by decide

/-- A7, A8. -/
theorem test_xorReg : (run ((start.setReg 1 0xFF).setReg 2 0x0F) 0x8123).reg 1 = 0xF0 ∧
    (run (start.setReg 1 0x5A) 0x8113).reg 1 = 0x00 := by decide

/-- A10, A11, A14. -/
theorem test_addReg :
    (run ((start.setReg 1 0x80).setReg 2 0x7F) 0x8124).reg 1 = 0xFF ∧
    (run ((start.setReg 1 0x80).setReg 2 0x7F) 0x8124).reg vf = 0 ∧
    (run ((start.setReg 1 0x80).setReg 2 0x80) 0x8124).reg 1 = 0x00 ∧
    (run ((start.setReg 1 0x80).setReg 2 0x80) 0x8124).reg vf = 1 ∧
    (run ((start.setReg 1 0x10).setReg vf 0x05) 0x81F4).reg 1 = 0x15 := by decide

/-- A13. -/
theorem test_addReg_vf : (run ((start.setReg vf 0xFF).setReg 2 0x03) 0x8F24).reg vf = 0x02 := by decide

/-- A16, A17. -/
theorem test_subReg :
    (run ((start.setReg 1 0x03).setReg 2 0x0A) 0x8125).reg 1 = 0xF9 ∧
    (run ((start.setReg 1 0x03).setReg 2 0x0A) 0x8125).reg vf = 0 ∧
    (run ((start.setReg 1 0x05).setReg 2 0x05) 0x8125).reg vf = 0 := by decide

/-- A18, A19, A20. -/
theorem test_subReg_vf :
    (run ((start.setReg 1 0x05).setReg vf 0x03) 0x81F5).reg 1 = 0x04 ∧
    (run ((start.setReg 1 0x05).setReg vf 0x03) 0x81F5).reg vf = 1 ∧
    (run ((start.setReg vf 0x05).setReg 2 0x03) 0x8F25).reg vf = 0xFE ∧
    (run (start.setReg vf 0x07) 0x8FF5).reg vf = 0x00 := by decide

/-- A22, A23. -/
theorem test_shr :
    (run (start.setReg 1 0x01) 0x8106).reg 1 = 0x00 ∧ (run (start.setReg 1 0x01) 0x8106).reg vf = 1 ∧
    (run ((start.setReg 1 0x04).setReg 2 0xFF) 0x8126).reg 1 = 0x02 ∧
    (run ((start.setReg 1 0x04).setReg 2 0xFF) 0x8126).reg vf = 0 := by decide

/-- A24. -/
theorem test_shr_vf : (run (start.setReg vf 0x03) 0x8F06).reg vf = 0x00 := by decide

/-- A25, A26. -/
theorem test_subnReg :
    (run ((start.setReg 1 0x03).setReg 2 0x0A) 0x8127).reg 1 = 0x07 ∧
    (run ((start.setReg 1 0x03).setReg 2 0x0A) 0x8127).reg vf = 1 ∧
    (run ((start.setReg 1 0x0A).setReg 2 0x03) 0x8127).reg 1 = 0xF9 ∧
    (run ((start.setReg 1 0x0A).setReg 2 0x03) 0x8127).reg vf = 0 := by decide

/-- A28, A29. -/
theorem test_subnReg_vf :
    (run (start.setReg vf 0x09) 0x81F7).reg 1 = 0x01 ∧ (run (start.setReg vf 0x09) 0x81F7).reg vf = 1 ∧
    (run ((start.setReg vf 0x05).setReg 2 0x03) 0x8F27).reg vf = 0x03 := by decide

/-- A30, A31. -/
theorem test_shl :
    (run (start.setReg 1 0x81) 0x810E).reg 1 = 0x02 ∧ (run (start.setReg 1 0x81) 0x810E).reg vf = 1 ∧
    (run (start.setReg 1 0x40) 0x810E).reg 1 = 0x80 ∧ (run (start.setReg 1 0x40) 0x810E).reg vf = 0 := by decide

/-- A32, A33. -/
theorem test_shl_vf :
    (run (start.setReg vf 0x81) 0x8F0E).reg vf = 0x02 ∧ (run (start.setReg vf 0x41) 0x8F0E).reg vf = 0x00 := by decide

/-- A34, with the vector's draw. -/
theorem test_rnd : (rndWith 0xA7 3 0x0F start).reg 3 = 0x07 := by decide

/-- A35: whatever is drawn. -/
theorem test_rnd_zero : (run (start.setReg 3 0x55) 0xC300).reg 3 = 0x00 := by
  change Config.randomByte 0 &&& 0 = 0
  exact BitVec.and_zero

/-- M1. -/
theorem test_ldI : (run start 0xA210).i = 0x210 := by decide

/-- M2, M3. -/
theorem test_addI : (run ((start.setI 0x0FFF).setReg 2 0x01) 0xF21E).i = 0x1000 ∧
    (run ((start.setI 0xFFFF).setReg 2 0x02) 0xF21E).i = 0x0001 := by decide

/-- M4, M5. -/
theorem test_ldF : (run (start.setReg 4 0x0A) 0xF429).i = 0x032 ∧ (run (start.setReg 4 0xFF) 0xF429).i = 0x4FB := by
  decide

/-- M10. -/
theorem test_ldB : (run ((start.setReg 5 0x9C).setI 0xFFD) 0xF533).readBytes 0xFFD 3 = [1, 5, 6] := by decide

/-- M9. -/
theorem test_ldB_out :
    recorded (run ((start.setReg 5 0x9C).setI 0xFFE) 0xF533) .addressOutOfRange 0x200 (some 0xF533) (some 0x1000) ∧
    (run ((start.setReg 5 0x9C).setI 0xFFE) 0xF533).readBytes 0xFFE 2 = [0, 0] := by decide

/-- M11. -/
theorem test_storeRegs :
    (run ((((start.setReg 0 1).setReg 1 2).setReg 2 3).setI 0x300) 0xF255).readBytes 0x300 4 = [1, 2, 3, 0] ∧
    (run ((((start.setReg 0 1).setReg 1 2).setReg 2 3).setI 0x300) 0xF255).i = 0x300 := by decide

/-- M13. -/
theorem test_storeRegs_out :
    recorded (run (start.setI 0xFF1) 0xFF55) .addressOutOfRange 0x200 (some 0xFF55) (some 0x1000) := by decide

/-- M15. -/
theorem test_loadRegs :
    (run ((start.setI 0x300).writeBytes 0x300 [0x0A, 0x0B, 0x0C, 0x0D]) 0xF265).regsUpTo 3 = [0x0A, 0x0B, 0x0C, 0] := by
  decide

/-- M16. -/
theorem test_loadRegs_out :
    recorded (run (start.setI 0x1000) 0xF065) .addressOutOfRange 0x200 (some 0xF065) (some 0x1000) := by decide

/-- D1, of the pixel (63,31). -/
theorem test_cls : (run (start.setFb (Framebuffer.toggle start.fb 63 31).1) 0x00E0).pixel 63 31 = false := by decide

/-- D5: the column wraps. -/
theorem test_drw_wrap :
    (run ((((start.setI 0x210).writeByte 0x210 0x81).setReg 0 0x3C).setReg 1 0x1F) 0xD011).pixel 60 31 = true ∧
    (run ((((start.setI 0x210).writeByte 0x210 0x81).setReg 0 0x3C).setReg 1 0x1F) 0xD011).pixel 3 31 = true ∧
    (run ((((start.setI 0x210).writeByte 0x210 0x81).setReg 0 0x3C).setReg 1 0x1F) 0xD011).reg vf = 0 := by decide

/-- D4: one pixel erased, one drawn. -/
theorem test_drw_collision :
    (run (((start.setI 0x210).writeByte 0x210 0xC0).setFb (Framebuffer.toggle start.fb 1 0).1) 0xD011).pixel 0 0 = true ∧
    (run (((start.setI 0x210).writeByte 0x210 0xC0).setFb (Framebuffer.toggle start.fb 1 0).1) 0xD011).pixel 1 0
      = false ∧
    (run (((start.setI 0x210).writeByte 0x210 0xC0).setFb (Framebuffer.toggle start.fb 1 0).1) 0xD011).reg vf = 1 := by
  decide

/-- K1, K2, K5. -/
theorem test_skp :
    (run ((start.setReg 1 5).setKey 5 true) 0xE19E).pc = 0x204 ∧ (run (start.setReg 1 5) 0xE19E).pc = 0x202 ∧
    recorded (run (start.setReg 1 0x10) 0xE19E) .keyOutOfRange 0x200 (some 0xE19E) none := by decide

/-- K3, K4, K6. -/
theorem test_sknp :
    (run (start.setReg 1 5) 0xE1A1).pc = 0x204 ∧ (run ((start.setReg 1 5).setKey 5 true) 0xE1A1).pc = 0x202 ∧
    recorded (run (start.setReg 1 0xFF) 0xE1A1) .keyOutOfRange 0x200 (some 0xE1A1) none := by decide

/-- K7. -/
theorem test_ldVxDt : (run (start.setDt 0x3C) 0xF307).reg 3 = 0x3C := by decide

/-- K8. -/
theorem test_ldVxK : (run (start.setReg 5 9) 0xF50A).wait = some 5 ∧ (run (start.setReg 5 9) 0xF50A).reg 5 = 9 ∧
    (run (start.setReg 5 9) 0xF50A).pc = 0x202 := by decide

/-- K9. -/
theorem test_ldDtVx : (run (start.setReg 2 5) 0xF215).dt = 5 ∧ (next (run (start.setReg 2 5) 0xF215)).dt = 4 := by decide

/-- K10. -/
theorem test_ldStVx : (run (start.setReg 2 3) 0xF218).st = 3 ∧
    (next (run (start.setReg 2 3) 0xF218)).toneCall = some (.play 440) := by decide

/-! ### Faults at fetch and decoding, batches, host calls -/

/-- F14. -/
theorem test_unknown : recorded (run start 0x5121) .unknownOpcode 0x200 (some 0x5121) none ∧ (run start 0x5121).pc = 0x202 := by
  decide

/-- B12, B13, at the fetch. -/
theorem test_fetch_out :
    recorded (next ((start.setBatch (some 1)).setPc 0xFFF)) .addressOutOfRange 0xFFF none (some 0x1000) ∧
    recorded (next ((start.setBatch (some 1)).setPc 0x1000)) .addressOutOfRange 0x1000 none (some 0x1000) := by decide

/-- R241's table. -/
theorem test_fault_codes : [FaultKind.unknownOpcode, .stackUnderflow, .stackOverflow, .addressOutOfRange,
    .keyOutOfRange].map FaultKind.code = [1, 2, 3, 4, 5] := by decide

/-- B3's batch of no cycle, as its end. -/
theorem test_batch_end :
    (next (((start.setDt 2).setSt 2).setBatch (some 0))).dt = 1 ∧
    (next (((start.setDt 2).setSt 2).setBatch (some 0))).toneCall = some (.play 440) ∧
    (next (((start.setDt 0).setSt 1).setBatch (some 0))).dt = 0 ∧
    (next (((start.setDt 0).setSt 1).setBatch (some 0))).toneCall = some .stop := by decide

/-- B8: the held key does not end the wait, the later press does. -/
theorem test_key_press :
    (run ((start.setKey 5 true)) 0xF30A).wait = some 3 ∧
    (keyPress 5 (keyRelease 5 (run ((start.setKey 5 true)) 0xF30A))).reg 3 = 5 ∧
    (keyPress 5 (keyRelease 5 (run ((start.setKey 5 true)) 0xF30A))).wait = none := by decide

/-- B11's second load: old bytes after the new program kept, the font reinstalled, PC and V0 kept. -/
theorem test_load :
    (loadProgram [0x61, 0x09] (start.writeBytes 0x200 [0x60, 0x07, 0x12, 0x02])).readBytes 0x200 4
      = [0x61, 0x09, 0x12, 0x02] ∧
    (loadProgram [0x61, 0x09] (start.writeByte 0x010 0)).readByte 0x010 = 0x10 ∧
    (loadProgram [0x61, 0x09] (start.setReg 0 7)).reg 0 = 7 := by decide

/-- A write of what an unlisted address reads as removes the entry. -/
theorem test_memory_canonical : ((start.writeByte 0x300 5).writeByte 0x300 0).mem = [] := by decide

/-! ### Witnesses: states and operands that meet the claims' hypotheses, at the bounds of their ranges -/

/-- A core that runs a cycle at its next step, with PC anywhere. -/
def cyclingAt (pc : Word) : State := (start.setBatch (some 1)).setPc pc

/-- A core that is ready, with one transaction pending. -/
def pending (t : Transaction) : State := start.setInbox [t]

/-- A halted core's record. -/
def someRecord : FaultRecord := { kind := .stackUnderflow, pc := 0x200, op := some 0x00EE, addr := none }

theorem cyclingAt_cycling (pc : Word) : Cycling (cyclingAt pc) 0 := ⟨rfl, rfl, rfl, rfl⟩

theorem witness_DecodeOfEncode :
    (Instr.jp 0xFFF).wellFormed = true ∧ (Instr.drw 15 15 15).wellFormed = true ∧ Instr.cls.wellFormed = true := by
  decide

theorem witness_EncodeOfDecode : decodeWord 0x8AB6 = .ok (.shr 0xA 0xB) := rfl

theorem witness_DecoderAgreesWithOpcodeTable :
    decodeWord 0xE19E = .ok (.skp 1) ∧ (Instr.skp 0).row.covers 0xE19E = true := ⟨rfl, by decide⟩

theorem witness_StepRunsDecodedInstruction :
    Cycling ((cyclingAt 0xFFE).writeBytes 0xFFE [0x12, 0x34]) 0 ∧
    ((cyclingAt 0xFFE).writeBytes 0xFFE [0x12, 0x34]).pc.toNat + 1 < 4096 ∧
    decode [((cyclingAt 0xFFE).writeBytes 0xFFE [0x12, 0x34]).readByte 0xFFE,
      ((cyclingAt 0xFFE).writeBytes 0xFFE [0x12, 0x34]).readByte 0xFFF] = .ok (.jp 0x234, []) :=
  ⟨⟨rfl, rfl, rfl, rfl⟩, by decide, rfl⟩

theorem witness_FetchOutsideMemoryHalts :
    (Cycling (cyclingAt 0xFFF) 0 ∧ 4095 ≤ (cyclingAt 0xFFF).pc.toNat) ∧
    (Cycling (cyclingAt 0x1000) 0 ∧ 4095 ≤ (cyclingAt 0x1000).pc.toNat) :=
  ⟨⟨cyclingAt_cycling _, by decide⟩, cyclingAt_cycling _, by decide⟩

theorem witness_UnknownOpcodeHalts :
    Cycling (cyclingAt 0xFFE) 0 ∧ (cyclingAt 0xFFE).pc.toNat + 1 < 4096 ∧
    (0 : Word).toNat = ((cyclingAt 0xFFE).readByte 0xFFE).toNat * 256 + ((cyclingAt 0xFFE).readByte 0xFFF).toNat ∧
    UnknownWord 0 :=
  ⟨cyclingAt_cycling _, by decide, by decide, .inl (by decide)⟩

theorem witness_BatchEndTicksAndGates :
    ((start.setSt 2).setBatch (some 0)).batch = some 0 ∧ ((start.setSt 2).setBatch (some 0)).ready = true ∧
    ((start.setSt 2).setBatch (some 0)).halt = none ∧
    ((start.setSt 2).setBatch (some 0)).cfg.tickWhilePaused = true ∧
    0 < (next ((start.setSt 2).setBatch (some 0))).st.toNat ∧
    (next ((start.setSt 1).setBatch (some 0))).st.toNat = 0 := by decide

/-- Construction with TICK_WHILE_PAUSED false, at the end of a batch. -/
def notTicking (w : Option RegNum) : State :=
  (((State.construct { Config.spec with tickWhilePaused := false } Framebuffer.allOff).setReady true).setBatch
    (some 0)).setWait w

/-- B6b, on DT = 5. -/
theorem witness_PausedBatchEndWithoutTicking :
    (∀ w, (notTicking w).batch = some 0 ∧ (notTicking w).ready = true ∧ (notTicking w).halt = none ∧
      (notTicking w).cfg.tickWhilePaused = false ∧ (notTicking w).wait = w) ∧
    (next ((notTicking (some 3)).setDt 5)).dt = 5 ∧ (next ((notTicking none).setDt 5)).dt = 4 :=
  ⟨fun _ => ⟨rfl, rfl, rfl, rfl, rfl⟩, by decide, by decide⟩

theorem witness_PausedIterationDoesNothing :
    ((cyclingAt 0x202).setWait (some 15)).batch = some (0 + 1) ∧ ((cyclingAt 0x202).setWait (some 15)).ready = true ∧
    ((cyclingAt 0x202).setWait (some 15)).halt = none ∧ ((cyclingAt 0x202).setWait (some 15)).wait = some 15 := by
  decide

theorem witness_BatchBeforeLoadChangesNothing :
    Pending (.runCycleBatch 5) ((pending (.runCycleBatch 5)).setReady false) ∧
    ((pending (.runCycleBatch 5)).setReady false).halt = none ∧
    ((pending (.runCycleBatch 5)).setReady false).ready = false := ⟨⟨rfl, rfl⟩, rfl, rfl⟩

theorem witness_BatchBeginsUnlessHalted :
    (Pending (.runCycleBatch 5) ((pending (.runCycleBatch 5)).setHalt (some someRecord)) ∧
      ((pending (.runCycleBatch 5)).setHalt (some someRecord)).halt ≠ none) ∧
    (Pending (.runCycleBatch 0) (pending (.runCycleBatch 0)) ∧ (pending (.runCycleBatch 0)).halt = none ∧
      (pending (.runCycleBatch 0)).ready = true) :=
  ⟨⟨⟨rfl, rfl⟩, by decide⟩, ⟨rfl, rfl⟩, rfl, rfl⟩

theorem witness_PausedBatchExecutesNothing :
    (start.setWait (some 3)).ready = true ∧ (start.setWait (some 3)).halt = none ∧
    (start.setWait (some 3)).wait = some 3 := by decide

theorem witness_BatchStepsAddUpToTransaction :
    (pending (.runCycleBatch 3)).batch = none ∧ (pending (.runCycleBatch 3)).inbox = [.runCycleBatch 3] := by decide

/-- The longest program. -/
theorem witness_LoadCopiesProgramAndFont (b : Byte) :
    Pending (.loadProgram (List.replicate 3584 b)) (pending (.loadProgram (List.replicate 3584 b))) ∧
    (pending (.loadProgram (List.replicate 3584 b))).halt = none ∧ (List.replicate 3584 b).length ≤ 3584 ∧
    (pending (.loadProgram (List.replicate 3584 b))).MemoryCanonical :=
  ⟨⟨rfl, rfl⟩, rfl, by rw [List.length_replicate], rfl⟩

theorem witness_LoadKeepsTheRest :
    Pending (.loadProgram []) (pending (.loadProgram [])) ∧ (pending (.loadProgram [])).halt = none ∧
    ([] : List Byte).length ≤ 3584 := ⟨⟨rfl, rfl⟩, rfl, by decide⟩

theorem witness_RefusedLoadsChangeNothing (b : Byte) :
    (Pending (.loadProgram [b]) ((pending (.loadProgram [b])).setHalt (some someRecord)) ∧
      ((pending (.loadProgram [b])).setHalt (some someRecord)).halt ≠ none) ∧
    (Pending (.loadProgram (List.replicate 3585 b)) (pending (.loadProgram (List.replicate 3585 b))) ∧
      3584 < (List.replicate 3585 b).length) :=
  ⟨⟨⟨rfl, rfl⟩, fun h => Option.some_ne_none someRecord h⟩, ⟨rfl, rfl⟩, by rw [List.length_replicate]; decide⟩

theorem witness_KeyPressEndsWait :
    Pending (.keyPress 15) ((pending (.keyPress 15)).setWait (some 15)) ∧
    ((pending (.keyPress 15)).setWait (some 15)).halt = none ∧
    ((pending (.keyPress 15)).setWait (some 15)).wait = some 15 := ⟨⟨rfl, rfl⟩, rfl, rfl⟩

theorem witness_KeyEventsOtherwiseSetLevel :
    (Pending (.keyPress 0) (pending (.keyPress 0)) ∧ (pending (.keyPress 0)).wait = none) ∧
    (Pending (.keyPress 0) ((pending (.keyPress 0)).setHalt (some someRecord)) ∧
      ((pending (.keyPress 0)).setHalt (some someRecord)).halt ≠ none) ∧
    Pending (.keyRelease 15) (pending (.keyRelease 15)) :=
  ⟨⟨⟨rfl, rfl⟩, rfl⟩, ⟨⟨rfl, rfl⟩, by decide⟩, rfl, rfl⟩

theorem witness_IntrospectionOnlyReads : Pending .introspect (pending .introspect) := ⟨rfl, rfl⟩

theorem witness_FirstInstructionAfterLoad (b : Byte) :
    (List.replicate 3582 b).length ≤ 3582 ∧ decode [0x12, 0x00] = .ok (.jp 0x200, []) :=
  ⟨by rw [List.length_replicate], rfl⟩

theorem witness_CallPushesOrOverflows :
    (start.setStack (List.replicate 15 0x202)).stack.length < (start.setStack (List.replicate 15 0x202)).cfg.stackDepth ∧
    (start.setStack (List.replicate 16 0x202)).cfg.stackDepth ≤ (start.setStack (List.replicate 16 0x202)).stack.length := by
  decide

theorem witness_ReturnPopsOrUnderflows : (start.setStack [0x204]).stack = 0x204 :: [] ∧ start.stack = [] := by decide

theorem witness_ReturnUndoesCall :
    start.stack.length < start.cfg.stackDepth ∧ exec (.call 0x300) start = .next ((start.push 0x200).setPc 0x300) ∧
    (start.setStack [0x200]).stack = ((start.push 0x200).setPc 0x300).stack := ⟨by decide, rfl, rfl⟩

theorem witness_SubtractByCases : (5 : Byte) = (start.setReg 1 5).reg 1 ∧ (0 : Byte) = (start.setReg 1 5).reg 2 ∧
    (0 : Byte) = (start.setReg 1 5).reg vf ∧ (1 : RegNum) ≠ vf ∧ (2 : RegNum) ≠ vf := by decide

theorem witness_ReverseSubtractByCases : (0 : Byte) = (start.setReg 2 5).reg 1 ∧ (5 : Byte) = (start.setReg 2 5).reg 2 ∧
    (0 : Byte) = (start.setReg 2 5).reg vf ∧ (1 : RegNum) ≠ vf ∧ (2 : RegNum) ≠ vf := by decide

/-- The last legal position, M10. -/
theorem witness_DecimalDigitsStored :
    (start.setI 0xFFD).i.toNat + 2 < 4096 ∧ (start.setI 0xFFD).MemoryCanonical := by decide

/-- The last legal position for sixteen bytes, M14. -/
theorem witness_RegistersStored :
    (start.setI 0xFF0).i.toNat + (15 : RegNum).val < 4096 ∧ (start.setI 0xFF0).MemoryCanonical := by decide

theorem witness_RegistersLoaded : (start.setI 0xFF0).i.toNat + (15 : RegNum).val < 4096 := by decide

/-- The lowest illegal position of each form, and one that lies outside memory altogether. -/
theorem witness_MemoryInstructionsHaltOutOfRange :
    4096 < (start.setI 0xFFE).i.toNat + 3 ∧ 4096 < (start.setI 0xFF1).i.toNat + ((15 : RegNum).val + 1) ∧
    (0 < 5 ∧ 4096 < (start.setI 0xFFC).i.toNat + 5) ∧ 4096 < (start.setI 0x1000).i.toNat + ((0 : RegNum).val + 1) := by
  decide

theorem witness_LoadUndoesStore :
    (start.setI 0xFFF).i.toNat + (0 : RegNum).val < 4096 ∧ (start.setI 0xFFF).MemoryCanonical ∧
    exec (.storeRegs 0) (start.setI 0xFFF) = .next ((start.setI 0xFFF).writeBytes 0xFFF [0]) ∧
    (((start.setI 0xFFF).writeBytes 0xFFF [0]).setReg 0 9).i = (start.setI 0xFFF).i ∧
    ∀ a, (((start.setI 0xFFF).writeBytes 0xFFF [0]).setReg 0 9).readByte a
      = ((start.setI 0xFFF).writeBytes 0xFFF [0]).readByte a :=
  ⟨by decide, by decide, rfl, rfl, fun _ => rfl⟩

/-- No byte at all, D7, and the last legal position, D9. -/
theorem witness_DrawTogglesSpritePixels :
    (0 < 16 ∧ (0 = 0 ∨ (start.setI 0xFFFF).i.toNat + 0 ≤ 4096)) ∧
    (5 < 16 ∧ (5 = 0 ∨ (start.setI 0xFFB).i.toNat + 5 ≤ 4096)) := by decide

/-- Digit 0 of the font (I is 0), drawn again on the display the first draw left. -/
theorem witness_DrawTwiceRestoresDisplay :
    5 < 16 ∧ start.i.toNat + 5 ≤ 4096 ∧ ∃ t, exec (.drw 0 1 5) start = .next t ∧
      (∀ px py, (start.setFb t.fb).pixel px py = t.pixel px py) ∧ (start.setFb t.fb).i = start.i ∧
      (∀ a, (start.setFb t.fb).readByte a = start.readByte a) ∧ (start.setFb t.fb).reg 2 = start.reg 0 ∧
      (start.setFb t.fb).reg 3 = start.reg 1 :=
  ⟨by decide, by decide, (exec_answers_next (.drw 0 1 5) start).imp fun _ ht =>
    ⟨ht, fun _ _ => rfl, rfl, fun _ => rfl, rfl, rfl⟩⟩

theorem witness_KeySkips :
    ((start.setReg 1 15).reg 1).toNat = (15 : KeyCode).val ∧ 15 < ((start.setReg 1 16).reg 1).toNat := by decide

theorem witness_StepKeepsMemoryCanonical :
    (start.withFetchWord 16 0xF533).MemoryCanonical ∧ ∃ t, step (start.withFetchWord 16 0xF533) = .next t :=
  ⟨by decide, step_answers_next _⟩

theorem witness_StepKeepsInvariant :
    (cyclingAt 0x10FE).Inv ∧ ∃ t, step (cyclingAt 0x10FE) = .next t :=
  ⟨⟨by decide, List.forall_mem_nil _, by decide, rfl, fun _ => ⟨rfl, rfl⟩, fun _ => rfl⟩, step_answers_next _⟩

theorem witness_HaltIsPermanent :
    ((pending (.keyPress 2)).setHalt (some someRecord)).halt ≠ none ∧
    step ((pending (.keyPress 2)).setHalt (some someRecord))
      = .next (((start.setInbox []).setHalt (some someRecord)).setKey 2 true) := ⟨by decide, rfl⟩

theorem witness_FaultsArePrecise :
    exec .ret start = .next (raiseIn .ret .stackUnderflow none start) ∧ start.halt = none ∧
    (raiseIn .ret .stackUnderflow none start).halt = some (faultOf .ret .stackUnderflow none start) :=
  ⟨rfl, rfl, rfl⟩

theorem witness_OnlyEightInstructionsCanFault :
    (∀ nnn, Instr.jp 0xFFF ≠ .call nnn) ∧ Instr.jp 0xFFF ≠ .ret ∧ (∀ x y n, Instr.jp 0xFFF ≠ .drw x y n) ∧
    (∀ x, Instr.jp 0xFFF ≠ .ldB x) ∧ (∀ x, Instr.jp 0xFFF ≠ .storeRegs x) ∧ (∀ x, Instr.jp 0xFFF ≠ .loadRegs x) ∧
    (∀ x, Instr.jp 0xFFF ≠ .skp x) ∧ (∀ x, Instr.jp 0xFFF ≠ .sknp x) := by simp

theorem witness_PartsChangedOnlyByTheirInstructions : exec (.ldI 0x210) start = .next (start.setI 0x210) ∧
    (start.setI 0x210).i ≠ start.i := ⟨rfl, by decide⟩

/-- The highest PC at which a word is placed, and the lowest at which it goes to 0x200 instead. -/
theorem witness_PlacedWordIsExecuted :
    0xFFFF < 65536 ∧ decodeTableWord 16 0xFF65 = some (.loadRegs 15) ∧
    ((start.setPc 0xFFE).MemoryCanonical ∧
      0xFFE = if (start.setPc 0xFFE).pc.toNat + 1 < 4096 then (start.setPc 0xFFE).pc.toNat else 0x200) ∧
    ((start.setPc 0xFFF).MemoryCanonical ∧
      0x200 = if (start.setPc 0xFFF).pc.toNat + 1 < 4096 then (start.setPc 0xFFF).pc.toNat else 0x200) := by decide

end Sys2Proof.Tests
end

section
/-! PROOFS. What the machine's shared operations can do, said once: the ranges of decoded operands, the cases of the eight
instructions that can fault, the parts each instruction may change (O58), the batch's end and the host's calls. -/

namespace Sys2Proof

/-! ### Decoded operands are in range -/

theorem addressFits_fieldNNN (op : Word) : addressFits (fieldNNN op) = true := by
  have : op.toNat % 4096 < 4096 := Nat.mod_lt _ (by decide)
  simpa [addressFits, fieldNNN_toNat] using this

theorem heightFits_fieldN (op : Word) : heightFits (fieldN op) = true := by
  have : op.toNat % 16 < 16 := Nat.mod_lt _ (by decide)
  simpa [heightFits, fieldN_eq] using this

theorem decode8_wellFormed {op : Word} {i : Instr} (h : decode8 op = .ok i) : i.wellFormed = true := by
  unfold decode8 at h
  split at h <;> cases h <;> rfl

theorem decodeE_wellFormed {op : Word} {i : Instr} (h : decodeE op = .ok i) : i.wellFormed = true := by
  unfold decodeE at h
  split at h <;> cases h <;> rfl

theorem decodeF_wellFormed {op : Word} {i : Instr} (h : decodeF op = .ok i) : i.wellFormed = true := by
  unfold decodeF at h
  split at h <;> cases h <;> rfl

/-- Every operand of a decoded instruction is in the range its field admits (R83). -/
theorem decodeWord_wellFormed {op : Word} {i : Instr} (h : decodeWord op = .ok i) : i.wellFormed = true := by
  unfold decodeWord at h
  split at h
  · split at h
    · cases h; rfl
    · split at h <;> cases h; rfl
  · cases h; exact addressFits_fieldNNN op
  · cases h; exact addressFits_fieldNNN op
  · cases h; rfl
  · cases h; rfl
  · split at h <;> cases h; rfl
  · cases h; rfl
  · cases h; rfl
  · exact decode8_wellFormed h
  · split at h <;> cases h; rfl
  · cases h; exact addressFits_fieldNNN op
  · cases h; exact addressFits_fieldNNN op
  · cases h; rfl
  · cases h; exact heightFits_fieldN op
  · exact decodeE_wellFormed h
  · exact decodeF_wellFormed h

end Sys2Proof

namespace Sys2Proof.Machine

/-! ### The eight instructions that can fault, each by its cases -/

section
variable {s t : State}

theorem execRet_cases (h : execRet s = .next t) :
    (s.stack = [] ∧ t = raiseIn .ret .stackUnderflow none s) ∨
    (∃ top rest, s.stack = top :: rest ∧ t = (s.setStack rest).setPc top) := by
  unfold execRet at h
  split at h <;> cases h
  · exact .inl ⟨‹_›, rfl⟩
  · exact .inr ⟨_, _, ‹_›, rfl⟩

theorem execCall_cases {nnn : Word} (h : execCall nnn s = .next t) :
    (s.cfg.stackDepth ≤ s.stack.length ∧ t = raiseIn (.call nnn) .stackOverflow none s) ∨
    (s.stack.length < s.cfg.stackDepth ∧ t = (s.push s.pc).setPc nnn) := by
  unfold execCall at h
  split at h <;> cases h
  · exact .inl ⟨‹_›, rfl⟩
  · exact .inr ⟨by omega, rfl⟩

theorem execDrw_cases {x y : RegNum} {n : Nat} (h : execDrw x y n s = .next t) :
    (∃ addr, outOfRange (s.effectiveAddress 0) n = some addr ∧
      t = raiseIn (.drw x y n) .addressOutOfRange (some addr) s) ∨
    (outOfRange (s.effectiveAddress 0) n = none ∧ ∃ fb flag, t = (s.setFb fb).setFlag flag) := by
  unfold execDrw at h
  split at h <;> cases h
  · exact .inl ⟨_, ‹_›, rfl⟩
  · exact .inr ⟨‹_›, _, _, rfl⟩

theorem execLdB_cases {x : RegNum} (h : execLdB x s = .next t) :
    (∃ addr, outOfRange (s.effectiveAddress 0) 3 = some addr ∧
      t = raiseIn (.ldB x) .addressOutOfRange (some addr) s) ∨
    (outOfRange (s.effectiveAddress 0) 3 = none ∧
      t = s.writeBytes (s.effectiveAddress 0) (decimalDigits (s.reg x))) := by
  unfold execLdB at h
  split at h <;> cases h
  · exact .inl ⟨_, ‹_›, rfl⟩
  · exact .inr ⟨‹_›, rfl⟩

theorem execStoreRegs_cases {x : RegNum} (h : execStoreRegs x s = .next t) :
    (∃ addr, outOfRange (s.effectiveAddress 0) (x.val + 1) = some addr ∧
      t = raiseIn (.storeRegs x) .addressOutOfRange (some addr) s) ∨
    (outOfRange (s.effectiveAddress 0) (x.val + 1) = none ∧
      t = s.writeBytes (s.effectiveAddress 0) (s.regsUpTo x)) := by
  unfold execStoreRegs at h
  split at h <;> cases h
  · exact .inl ⟨_, ‹_›, rfl⟩
  · exact .inr ⟨‹_›, rfl⟩

theorem execLoadRegs_cases {x : RegNum} (h : execLoadRegs x s = .next t) :
    (∃ addr, outOfRange (s.effectiveAddress 0) (x.val + 1) = some addr ∧
      t = raiseIn (.loadRegs x) .addressOutOfRange (some addr) s) ∨
    (outOfRange (s.effectiveAddress 0) (x.val + 1) = none ∧
      t = s.setRegs (loadInto s.v 0 (s.readBytes (s.effectiveAddress 0) (x.val + 1)))) := by
  unfold execLoadRegs at h
  split at h <;> cases h
  · exact .inl ⟨_, ‹_›, rfl⟩
  · exact .inr ⟨‹_›, rfl⟩

theorem execSkp_cases {x : RegNum} (h : execSkp x s = .next t) :
    (s.keyOperand x = none ∧ t = raiseIn (.skp x) .keyOutOfRange none s) ∨
    (∃ k, s.keyOperand x = some k ∧ t = skipIf (s.isPressed k) s) := by
  unfold execSkp at h
  split at h <;> cases h
  · exact .inl ⟨‹_›, rfl⟩
  · exact .inr ⟨_, ‹_›, rfl⟩

theorem execSknp_cases {x : RegNum} (h : execSknp x s = .next t) :
    (s.keyOperand x = none ∧ t = raiseIn (.sknp x) .keyOutOfRange none s) ∨
    (∃ k, s.keyOperand x = some k ∧ t = skipIf (!s.isPressed k) s) := by
  unfold execSknp at h
  split at h <;> cases h
  · exact .inl ⟨‹_›, rfl⟩
  · exact .inr ⟨_, ‹_›, rfl⟩

end

/-! ### The parts of the machine an instruction may change -/

/-- The parts other than V registers that an instruction may change when it completes. -/
@[simp] def partsWritten : Instr → List Part
  | .cls | .drw _ _ _ => [.display]
  | .ret | .call _ => [.stack, .pc]
  | .jp _ | .jpV0 _ | .seImm _ _ | .sneImm _ _ | .seReg _ _ | .sneReg _ _ | .skp _ | .sknp _ => [.pc]
  | .ldI _ | .addI _ | .ldF _ => [.index]
  | .ldB _ | .storeRegs _ => [.memory]
  | .ldDtVx _ => [.delayTimer]
  | .ldStVx _ => [.soundTimer]
  | .ldVxK _ => [.wait, .callback]
  | .rnd _ _ => [.draws]
  | _ => []

/-- Every V register: the frames below leave open which of them change. -/
abbrev allRegs : List RegNum := List.finRange 16

theorem frame_setRegs (s : State) (v : Vector Byte 16) : Frame allRegs [] s (s.setRegs v) :=
  ⟨fun r hr => absurd (List.mem_finRange r) hr, fun p _ => by cases p <;> simp [Part.Same]⟩

theorem frame_skipIf (c : Bool) (s : State) : Frame allRegs [.pc] s (skipIf c s) := (skipIf_spec c s).2.weaken

/-- All that an instruction can do to the machine's parts: raise a fault, or complete and change only what
`partsWritten` lists. -/
theorem exec_frame {i : Instr} {s t : State} (h : exec i s = .next t) :
    (∃ kind addr, t = raiseIn i kind addr s) ∨ Frame allRegs (partsWritten i) s t := by
  cases i with
  | cls => cases h; exact .inr (frame_setFb s _).weaken
  | ret =>
    obtain ⟨-, rfl⟩ | ⟨top, rest, -, rfl⟩ := execRet_cases h
    · exact .inl ⟨_, _, rfl⟩
    · exact .inr ((frame_setStack s rest).trans (frame_setPc _ top)).weaken
  | jp nnn => cases h; exact .inr (frame_setPc s nnn).weaken
  | call nnn =>
    obtain ⟨-, rfl⟩ | ⟨-, rfl⟩ := execCall_cases h
    · exact .inl ⟨_, _, rfl⟩
    · exact .inr ((frame_setStack s _).trans (frame_setPc _ nnn)).weaken
  | seImm x kk => cases h; exact .inr (frame_skipIf _ s)
  | sneImm x kk => cases h; exact .inr (frame_skipIf _ s)
  | seReg x y => cases h; exact .inr (frame_skipIf _ s)
  | sneReg x y => cases h; exact .inr (frame_skipIf _ s)
  | ldImm x kk => cases h; exact .inr (frame_setReg s x _).weaken
  | addImm x kk => cases h; exact .inr (frame_setReg s x _).weaken
  | ldReg x y => cases h; exact .inr (frame_setReg s x _).weaken
  | orReg x y => cases h; exact .inr (frame_setReg s x _).weaken
  | andReg x y => cases h; exact .inr (frame_setReg s x _).weaken
  | xorReg x y => cases h; exact .inr (frame_setReg s x _).weaken
  | addReg x y => cases h; exact .inr (frame_flag_then_reg s _ _ x).weaken
  | subReg x y => cases h; exact .inr (frame_flag_then_reg s _ _ x).weaken
  | shr x y => cases h; exact .inr (frame_flag_then_reg s _ _ x).weaken
  | subnReg x y => cases h; exact .inr (frame_flag_then_reg s _ _ x).weaken
  | shl x y => cases h; exact .inr (frame_flag_then_reg s _ _ x).weaken
  | ldI nnn => cases h; exact .inr (frame_setI s nnn).weaken
  | jpV0 nnn => cases h; exact .inr (frame_setPc s _).weaken
  | rnd x kk => cases h; exact .inr ((frame_setDraws s _).trans (frame_setReg _ x _)).weaken
  | drw x y n =>
    obtain ⟨_, -, rfl⟩ | ⟨-, fb, flag, rfl⟩ := execDrw_cases h
    · exact .inl ⟨_, _, rfl⟩
    · exact .inr ((frame_setFb s fb).trans (frame_setFlag _ flag)).weaken
  | skp x =>
    obtain ⟨-, rfl⟩ | ⟨_, -, rfl⟩ := execSkp_cases h
    · exact .inl ⟨_, _, rfl⟩
    · exact .inr (frame_skipIf _ s)
  | sknp x =>
    obtain ⟨-, rfl⟩ | ⟨_, -, rfl⟩ := execSknp_cases h
    · exact .inl ⟨_, _, rfl⟩
    · exact .inr (frame_skipIf _ s)
  | ldVxDt x => cases h; exact .inr (frame_setReg s x _).weaken
  | ldVxK x => cases h; exact .inr ((frame_setWait s _).trans (frame_setCallback _ true)).weaken
  | ldDtVx x => cases h; exact .inr (frame_setDt s _).weaken
  | ldStVx x => cases h; exact .inr (frame_setSt s _).weaken
  | addI x => cases h; exact .inr (frame_setI s _).weaken
  | ldF x => cases h; exact .inr (frame_setI s _).weaken
  | ldB x =>
    obtain ⟨_, -, rfl⟩ | ⟨-, rfl⟩ := execLdB_cases h
    · exact .inl ⟨_, _, rfl⟩
    · exact .inr (frame_writeBytes s _ _).weaken
  | storeRegs x =>
    obtain ⟨_, -, rfl⟩ | ⟨-, rfl⟩ := execStoreRegs_cases h
    · exact .inl ⟨_, _, rfl⟩
    · exact .inr (frame_writeBytes s _ _).weaken
  | loadRegs x =>
    obtain ⟨_, -, rfl⟩ | ⟨-, rfl⟩ := execLoadRegs_cases h
    · exact .inl ⟨_, _, rfl⟩
    · exact .inr (frame_setRegs s _)

/-- The parts a fault writes (R244). -/
def faultParts : List Part := [.halt, .batch, .reply]

/-- The parts no instruction writes, whether it completes or faults. -/
def fixedParts : List Part := [.ready, .keys, .tone, .config, .inbox, .toneCall]

theorem not_mem_partsWritten (i : Instr) : ∀ p ∈ fixedParts ++ faultParts, p ∉ partsWritten i := by
  cases i <;> simp [fixedParts, faultParts]

/-- A part that neither the instruction nor a fault writes stays as it was, whether the instruction completes or
faults. -/
theorem exec_same {i : Instr} {s t : State} {p : Part} (h : exec i s = .next t) (hp : p ∉ partsWritten i)
    (hf : p ∉ faultParts) : p.Same s t := by
  obtain ⟨kind, addr, rfl⟩ | hframe := exec_frame h
  · exact (raiseIn_haltsWith i kind addr s).frame.parts p hf
  · exact hframe.parts p hp

/-- Only an instruction that lists a part changes it, the parts a fault writes aside. -/
theorem mem_partsWritten_of_changed {i : Instr} {s t : State} {p : Part} (h : exec i s = .next t)
    (hf : p ∉ faultParts) (hne : ¬p.Same s t) : p ∈ partsWritten i :=
  by_contra fun hp => hne (exec_same h hp hf)

theorem exec_same_fixed {i : Instr} {s t : State} {p : Part} (h : exec i s = .next t) (hp : p ∈ fixedParts) :
    p.Same s t :=
  exec_same h (not_mem_partsWritten i p (List.mem_append_left _ hp))
    ((by decide : ∀ p ∈ fixedParts, p ∉ faultParts) p hp)

/-! ### Which instructions list a part -/

theorem index_mem_partsWritten {i : Instr} :
    .index ∈ partsWritten i ↔ (∃ nnn, i = .ldI nnn) ∨ (∃ x, i = .addI x) ∨ (∃ x, i = .ldF x) := by
  cases i <;> simp

theorem stack_mem_partsWritten {i : Instr} : .stack ∈ partsWritten i ↔ (∃ nnn, i = .call nnn) ∨ i = .ret := by
  cases i <;> simp

theorem delayTimer_mem_partsWritten {i : Instr} : .delayTimer ∈ partsWritten i ↔ ∃ x, i = .ldDtVx x := by
  cases i <;> simp

theorem soundTimer_mem_partsWritten {i : Instr} : .soundTimer ∈ partsWritten i ↔ ∃ x, i = .ldStVx x := by
  cases i <;> simp

theorem memory_mem_partsWritten {i : Instr} :
    .memory ∈ partsWritten i ↔ (∃ x, i = .ldB x) ∨ (∃ x, i = .storeRegs x) := by
  cases i <;> simp

theorem display_mem_partsWritten {i : Instr} : .display ∈ partsWritten i ↔ i = .cls ∨ ∃ x y n, i = .drw x y n := by
  cases i <;> simp

theorem wait_mem_partsWritten {i : Instr} : .wait ∈ partsWritten i ↔ ∃ x, i = .ldVxK x := by
  cases i <;> simp

theorem State.keys_eq_of_same {s t : State} (h : Part.keys.Same s t) : t.keys = s.keys :=
  Vector.ext fun k hk => h ⟨k, hk⟩

/-! ### The batch's end and the host's calls -/

theorem frame_endOfBatch (s : State) :
    Frame [] [.delayTimer, .soundTimer, .tone, .toneCall, .batch, .reply] s (endOfBatch s) := by
  unfold endOfBatch
  split
  · exact ((((frame_tickTimers s).trans (frame_gateTone _)).trans (frame_setBatch _ none)).trans
      (frame_setReply _ _)).weaken
  · exact (((frame_gateTone s).trans (frame_setBatch _ none)).trans (frame_setReply _ _)).weaken

/-- All that a key press can do: raise the key's level, and in a core that waits and is not halted end the wait. -/
theorem keyPress_cases (k : KeyCode) (s : State) :
    (∃ x, s.halt = none ∧ s.wait = some x ∧
      keyPress k s = (((s.setKey k true).setReg x (BitVec.ofNat 8 k.val)).setWait none).setCallback false) ∨
    ((s.halt ≠ none ∨ s.wait = none) ∧ keyPress k s = s.setKey k true) := by
  cases hhalt : s.halt <;> cases hwait : s.wait <;> simp [keyPress, hhalt, hwait]

/-- All that beginning a batch can do: turn the call away, or put a batch under way in a core that is loaded and not
halted. -/
theorem beginBatch_cases (n : Nat) (s : State) :
    (∃ r, batchRefusal s = some r ∧ beginBatch n s = (s.setToneCall none).setReply (some r)) ∨
    (s.halt = none ∧ s.ready = true ∧ beginBatch n s = (s.setToneCall none).setBatch (some n)) := by
  unfold beginBatch
  split
  · exact .inl ⟨_, ‹_›, rfl⟩
  · obtain ⟨hhalt, hready⟩ := batchRefusal_eq_none.mp ‹_›
    exact .inr ⟨hhalt, hready, rfl⟩

/-- All that a load can do: be refused by a halted core, be refused as too long, or install its program. -/
theorem loadProgram_cases (bytes : List Byte) (s : State) :
    (s.halt ≠ none ∧ loadProgram bytes s = s.setReply (some .halted)) ∨
    (s.halt = none ∧ 3584 < bytes.length ∧ loadProgram bytes s = s.setReply (some .oversizedProgram)) ∨
    (s.halt = none ∧ bytes.length ≤ 3584 ∧ loadProgram bytes s = (install bytes s).setReply (some .loaded)) := by
  unfold loadProgram
  split
  · exact .inl ⟨Option.isSome_iff_ne_none.mp ‹_›, rfl⟩
  · have hhalt : s.halt = none := Option.not_isSome_iff_eq_none.mp ‹_›
    split
    · exact .inr (.inl ⟨hhalt, ‹_›, rfl⟩)
    · exact .inr (.inr ⟨hhalt, Nat.not_lt.mp ‹_›, rfl⟩)

end Sys2Proof.Machine

open Sys2Proof Sys2Proof.Machine

/-- Settles O58: an instruction, faulting or not, changes only the parts `partsWritten` lists for it. -/
theorem partsChangedOnlyByTheirInstructions : Obligations.PartsChangedOnlyByTheirInstructions := by
  intro i s t h
  refine ⟨fun hi => index_mem_partsWritten.mp (mem_partsWritten_of_changed h (by decide) hi),
    fun hs => stack_mem_partsWritten.mp (mem_partsWritten_of_changed h (by decide) hs),
    fun hd => delayTimer_mem_partsWritten.mp (mem_partsWritten_of_changed h (by decide) hd),
    fun hs => soundTimer_mem_partsWritten.mp (mem_partsWritten_of_changed h (by decide) hs),
    fun hm => memory_mem_partsWritten.mp (mem_partsWritten_of_changed h (by decide) (not_forall.mpr hm)),
    fun ⟨px, py, hne⟩ => display_mem_partsWritten.mp
      (mem_partsWritten_of_changed h (by decide) fun hsame => hne (hsame px py)),
    fun hw => wait_mem_partsWritten.mp (mem_partsWritten_of_changed h (by decide) hw),
    exec_same_fixed (p := .ready) h (by decide), State.keys_eq_of_same (exec_same_fixed h (by decide)),
    exec_same_fixed (p := .tone) h (by decide), exec_same_fixed (p := .config) h (by decide)⟩
end

section
/-! PROOFS. Every step keeps memory canonical (O53). -/

namespace Sys2Proof.Machine

section
variable {s t : State}

/-! ### Instructions and cycles -/

@[simp] theorem skipIf_mem (c : Bool) (s : State) : (skipIf c s).mem = s.mem := by cases c <;> rfl

/-- All that an instruction can do to memory: nothing, or store bytes that lie inside it. -/
theorem exec_mem_cases {i : Instr} (h : exec i s = .next t) :
    t.mem = s.mem ∨ ∃ a l, a + l.length ≤ 4096 ∧ t.mem = (s.writeBytes a l).mem := by
  cases i with
  | ldB x =>
    obtain ⟨_, -, rfl⟩ | ⟨hr, rfl⟩ := execLdB_cases h
    · exact .inl rfl
    · have hin := outOfRange_eq_none.mp hr
      exact .inr ⟨_, _, by simpa [decimalDigits] using hin, rfl⟩
  | storeRegs x =>
    obtain ⟨_, -, rfl⟩ | ⟨hr, rfl⟩ := execStoreRegs_cases h
    · exact .inl rfl
    · have hin := outOfRange_eq_none.mp hr
      exact .inr ⟨_, _, by simpa using hin, rfl⟩
  | ret => obtain ⟨-, rfl⟩ | ⟨_, _, -, rfl⟩ := execRet_cases h <;> exact .inl rfl
  | call nnn => obtain ⟨-, rfl⟩ | ⟨-, rfl⟩ := execCall_cases h <;> exact .inl rfl
  | drw x y n => obtain ⟨_, -, rfl⟩ | ⟨-, _, _, rfl⟩ := execDrw_cases h <;> exact .inl rfl
  | loadRegs x => obtain ⟨_, -, rfl⟩ | ⟨-, rfl⟩ := execLoadRegs_cases h <;> exact .inl rfl
  | skp x =>
    obtain ⟨-, rfl⟩ | ⟨_, -, rfl⟩ := execSkp_cases h
    · exact .inl rfl
    · exact .inl (skipIf_mem _ s)
  | sknp x =>
    obtain ⟨-, rfl⟩ | ⟨_, -, rfl⟩ := execSknp_cases h
    · exact .inl rfl
    · exact .inl (skipIf_mem _ s)
  | seImm x kk => cases h; exact .inl (skipIf_mem _ s)
  | sneImm x kk => cases h; exact .inl (skipIf_mem _ s)
  | seReg x y => cases h; exact .inl (skipIf_mem _ s)
  | sneReg x y => cases h; exact .inl (skipIf_mem _ s)
  | _ => cases h; exact .inl rfl

theorem exec_keeps_memoryCanonical {i : Instr} (hs : s.MemoryCanonical) (h : exec i s = .next t) :
    t.MemoryCanonical := by
  have hcfg : t.cfg = s.cfg := exec_same_fixed (p := .config) h (by decide)
  rw [State.MemoryCanonical, hcfg]
  obtain hmem | ⟨a, l, hin, hmem⟩ := exec_mem_cases h <;> rw [hmem]
  · exact hs
  · exact State.wf_writeBytes hs (.inr hin)

theorem cycle_keeps_memoryCanonical (hs : s.MemoryCanonical) (h : cycle s = .next t) : t.MemoryCanonical := by
  obtain ⟨_, -, rfl⟩ | ⟨-, -, rfl⟩ | ⟨-, i, -, hexec⟩ := cycle_cases h
  · exact hs
  · exact hs
  · exact exec_keeps_memoryCanonical (s := preIncrement s) hs hexec

/-! ### The batch's end and the host's calls -/

@[simp] theorem gateTone_mem (s : State) : (gateTone s).mem = s.mem := by unfold gateTone; split <;> rfl

@[simp] theorem endOfBatch_mem (s : State) : (endOfBatch s).mem = s.mem := by
  simp only [endOfBatch, State.setReply_mem, State.setBatch_mem, gateTone_mem]
  split <;> rfl

/-- A program of at most 3584 bytes ends inside memory, and so does the font. -/
theorem install_keeps_memoryCanonical {bytes : List Byte} (hs : s.MemoryCanonical) (hlen : bytes.length ≤ 3584) :
    (install bytes s).MemoryCanonical := by
  have hprogram := State.wf_writeBytes (a := progBase) (l := bytes) hs (.inr (by simp; omega))
  exact State.wf_writeBytes (a := 0) hprogram (.inr (by simp))

theorem loadProgram_keeps_memoryCanonical (bytes : List Byte) (hs : s.MemoryCanonical) :
    (loadProgram bytes s).MemoryCanonical := by
  obtain ⟨-, heq⟩ | ⟨-, -, heq⟩ | ⟨-, hlen, heq⟩ := loadProgram_cases bytes s <;> rw [heq]
  · exact hs
  · exact hs
  · exact install_keeps_memoryCanonical hs hlen

theorem perform_keeps_memoryCanonical (a : Transaction) (hs : s.MemoryCanonical) :
    (perform a s).MemoryCanonical := by
  cases a with
  | loadProgram bytes => exact loadProgram_keeps_memoryCanonical bytes hs
  | runCycleBatch n =>
    obtain ⟨_, -, heq⟩ | ⟨-, -, heq⟩ := beginBatch_cases n s <;> rw [perform, heq] <;> exact hs
  | keyPress k =>
    obtain ⟨_, -, -, heq⟩ | ⟨-, heq⟩ := keyPress_cases k s <;> rw [perform, heq] <;> exact hs
  | keyRelease k => exact hs
  | introspect => exact hs

/-! ### The step -/

theorem step_keeps_memoryCanonical (hs : s.MemoryCanonical) (h : step s = .next t) : t.MemoryCanonical := by
  obtain ⟨_, _, -, -, rfl⟩ | ⟨-, -, rfl⟩ | ⟨k, -, -, ⟨-, hcycle⟩ | ⟨-, rfl⟩⟩ | ⟨-, -, rfl⟩ | ⟨a, rest, -, -, rfl⟩ :=
    step_cases h
  · exact hs
  · have hcfg : (endOfBatch s).cfg = s.cfg := (frame_endOfBatch s).parts .config (by decide)
    rw [State.MemoryCanonical, endOfBatch_mem, hcfg]
    exact hs
  · exact cycle_keeps_memoryCanonical (s := s.setBatch (some k)) hs hcycle
  · exact hs
  · exact hs
  · exact perform_keeps_memoryCanonical a (s := s.setInbox rest) hs

end

end Sys2Proof.Machine

open Sys2Proof Sys2Proof.Machine

/-- Settles O53, by the cases of a step: the only stores are an instruction's and a load's, and both lie inside
memory. -/
theorem stepKeepsMemoryCanonical : Obligations.StepKeepsMemoryCanonical :=
  fun _ _ hs h => step_keeps_memoryCanonical hs h
end

section
/-! PROOFS. Every step keeps the machine's invariant (O54). -/

namespace Sys2Proof.Machine

section
variable {s t : State}

/-! ### What the invariant reads -/

/-- The parts the invariant reads, the batch aside. -/
def invParts : List Part := [.stack, .pc, .wait, .ready, .halt, .callback, .config]

/-- The invariant carries over to a state that agrees on what it reads and has no batch under way that should not be. -/
theorem State.Inv.of_same (hs : s.Inv) (hsame : ∀ p ∈ invParts, p.Same s t)
    (hbatch : t.batch.isSome → s.ready = true ∧ s.halt = none) : t.Inv := by
  have hstack : t.stack = s.stack := hsame .stack (by decide)
  have hpc : t.pc = s.pc := hsame .pc (by decide)
  have hwait : t.wait = s.wait := hsame .wait (by decide)
  have hready : t.ready = s.ready := hsame .ready (by decide)
  have hhalt : t.halt = s.halt := hsame .halt (by decide)
  have harmed : t.callbackArmed = s.callbackArmed := hsame .callback (by decide)
  have hcfg : t.cfg = s.cfg := hsame .config (by decide)
  obtain ⟨depth, returns, pcBound, armed, -, loaded⟩ := hs
  exact ⟨by rwa [hstack, hcfg], by rwa [hstack], by rwa [hpc], by rwa [harmed, hwait], by rwa [hready, hhalt],
    by rwa [hhalt, hready]⟩

theorem State.Inv.of_frame {regs : List RegNum} {parts : List Part} (hs : s.Inv) (hf : Frame regs parts s t)
    (hbatch : t.batch.isSome → s.ready = true ∧ s.halt = none)
    (hparts : ∀ p ∈ invParts, p ∉ parts := by decide) : t.Inv :=
  hs.of_same (fun p hp => hf.parts p (hparts p hp)) hbatch

/-- A fault in a loaded core: the batch ends, so the halted core has none under way. -/
theorem State.Inv.raise (hs : s.Inv) (hready : s.ready = true) (kind : FaultKind) (pc : Word) (op : Option Word)
    (addr : Option Nat) : (raise kind pc op addr s).Inv :=
  ⟨hs.depth, hs.returns, hs.pcBound, hs.armed, nofun, fun _ => hready⟩

/-! ### What an instruction does to the parts the invariant reads -/

/-- All that an instruction can do to the stack: nothing, push PC where there is room, or pop. -/
theorem exec_stack_cases {i : Instr} (h : exec i s = .next t) :
    t.stack = s.stack ∨ (s.stack.length < s.cfg.stackDepth ∧ t.stack = s.pc :: s.stack) ∨
      ∃ top, s.stack = top :: t.stack := by
  cases i with
  | ret =>
    obtain ⟨-, rfl⟩ | ⟨top, rest, hstack, rfl⟩ := execRet_cases h
    · exact .inl rfl
    · exact .inr (.inr ⟨top, hstack⟩)
  | call nnn =>
    obtain ⟨-, rfl⟩ | ⟨hroom, rfl⟩ := execCall_cases h
    · exact .inl rfl
    · exact .inr (.inl ⟨hroom, rfl⟩)
  | _ => exact .inl (exec_same (p := .stack) h (by simp) (by decide))

/-- All that an instruction can do to Wait and the callback: nothing, or begin a wait and arm the callback. -/
theorem exec_wait_cases {i : Instr} (h : exec i s = .next t) :
    (t.wait = s.wait ∧ t.callbackArmed = s.callbackArmed) ∨ ∃ x, t.wait = some x ∧ t.callbackArmed = true := by
  cases i with
  | ldVxK x => cases h; exact .inr ⟨x, rfl, rfl⟩
  | _ =>
    exact .inl ⟨exec_same (p := .wait) h (by simp) (by decide), exec_same (p := .callback) h (by simp) (by decide)⟩

theorem skipIf_pc_le (c : Bool) {bound : Nat} (hpc : s.pc.toNat ≤ bound) : (skipIf c s).pc.toNat ≤ bound + 2 := by
  rw [(skipIf_spec c s).1]
  split
  · exact (Nat.mod_le _ _).trans (by omega)
  · omega

/-- The highest PC an instruction leaves is that of Bnnn, 0xFFF plus 0xFF (R26). -/
theorem jpV0_target_le {nnn : Word} (h : addressFits nnn = true) (b : Byte) : (nnn + zext16 b).toNat ≤ 0x10FE := by
  have hb := b.isLt
  have hz : (zext16 b).toNat = b.toNat := BitVec.toNat_setWidth_of_le (by decide)
  simp only [addressFits, decide_eq_true_eq] at h
  rw [BitVec.toNat_add, hz]
  omega

/-- An instruction that starts with PC and every return address at most 0x1000 leaves PC at most 0x10FE (R26). -/
theorem exec_pc_le {i : Instr} (h : exec i s = .next t) (hwf : i.wellFormed = true) (hpc : s.pc.toNat ≤ 0x1000)
    (hreturns : ∀ a ∈ s.stack, a.toNat ≤ 0x1000) : t.pc.toNat ≤ 0x10FE := by
  have skip_le (c : Bool) : (skipIf c s).pc.toNat ≤ 0x10FE := (skipIf_pc_le c hpc).trans (by decide)
  have start_le : s.pc.toNat ≤ 0x10FE := hpc.trans (by decide)
  have fits_le {nnn : Word} (hn : addressFits nnn = true) : nnn.toNat ≤ 0x10FE := by
    simp only [addressFits, decide_eq_true_eq] at hn
    omega
  cases i with
  | jp nnn => cases h; exact fits_le hwf
  | jpV0 nnn => cases h; exact jpV0_target_le hwf _
  | call nnn =>
    obtain ⟨-, rfl⟩ | ⟨-, rfl⟩ := execCall_cases h
    · exact start_le
    · exact fits_le hwf
  | ret =>
    obtain ⟨-, rfl⟩ | ⟨top, rest, hstack, rfl⟩ := execRet_cases h
    · exact start_le
    · exact (hreturns top (by simp [hstack])).trans (by decide)
  | seImm x kk => cases h; exact skip_le _
  | sneImm x kk => cases h; exact skip_le _
  | seReg x y => cases h; exact skip_le _
  | sneReg x y => cases h; exact skip_le _
  | skp x =>
    obtain ⟨-, rfl⟩ | ⟨_, -, rfl⟩ := execSkp_cases h
    · exact start_le
    · exact skip_le _
  | sknp x =>
    obtain ⟨-, rfl⟩ | ⟨_, -, rfl⟩ := execSknp_cases h
    · exact start_le
    · exact skip_le _
  | _ =>
    have hsame : t.pc = s.pc := exec_same (p := .pc) h (by simp) (by decide)
    rw [hsame]
    exact start_le

/-- An instruction that runs with PC at most 0x1000 in a loaded core keeps the invariant. -/
theorem exec_keeps_inv {i : Instr} (hs : s.Inv) (hready : s.ready = true) (hwf : i.wellFormed = true)
    (hpc : s.pc.toNat ≤ 0x1000) (h : exec i s = .next t) : t.Inv := by
  obtain ⟨kind, addr, rfl⟩ | hframe := exec_frame h
  · exact hs.raise hready _ _ _ _
  have hcfg : t.cfg = s.cfg := exec_same_fixed (p := .config) h (by decide)
  have hready' : t.ready = s.ready := exec_same_fixed (p := .ready) h (by decide)
  have hhalt : t.halt = s.halt := hframe.parts .halt (not_mem_partsWritten i _ (by decide))
  have hbatch : t.batch = s.batch := hframe.parts .batch (not_mem_partsWritten i _ (by decide))
  refine ⟨?depth, ?returns, exec_pc_le h hwf hpc hs.returns, ?armed, ?batch, ?loaded⟩
  case depth =>
    have := hs.depth
    rw [hcfg]
    obtain hst | ⟨hroom, hst⟩ | ⟨top, hst⟩ := exec_stack_cases h
    · rwa [hst]
    · rw [hst]; exact hroom
    · rw [hst, List.length_cons] at this; omega
  case returns =>
    have := hs.returns
    obtain hst | ⟨-, hst⟩ | ⟨top, hst⟩ := exec_stack_cases h
    · rwa [hst]
    · rw [hst]; exact List.forall_mem_cons.mpr ⟨hpc, this⟩
    · rw [hst] at this; exact (List.forall_mem_cons.mp this).2
  case armed =>
    obtain ⟨hw, hc⟩ | ⟨x, hw, hc⟩ := exec_wait_cases h
    · rw [hw, hc]; exact hs.armed
    · rw [hw, hc]; rfl
  case batch => rw [hbatch, hready', hhalt]; exact hs.batch
  case loaded => rw [hhalt, hready']; exact hs.loaded

/-! ### The cycle -/

/-- A fetch that succeeds leaves PC at most 0x1000. -/
theorem preIncrement_pc_le (h : outOfRange s.pc.toNat 2 = none) : (preIncrement s).pc.toNat ≤ 0x1000 := by
  have hin := outOfRange_eq_none.mp h
  rw [preIncrement, State.setPc_pc, BitVec.toNat_add]
  exact (Nat.mod_le _ _).trans (by simpa using hin)

theorem preIncrement_keeps_inv (hs : s.Inv) (h : outOfRange s.pc.toNat 2 = none) : (preIncrement s).Inv :=
  ⟨hs.depth, hs.returns, (preIncrement_pc_le h).trans (by decide), hs.armed, hs.batch, hs.loaded⟩

theorem cycle_keeps_inv (hs : s.Inv) (hready : s.ready = true) (h : cycle s = .next t) : t.Inv := by
  obtain ⟨_, -, rfl⟩ | ⟨hfetch, -, rfl⟩ | ⟨hfetch, i, hdecode, hexec⟩ := cycle_cases h
  · exact hs.raise hready _ _ _ _
  · exact (preIncrement_keeps_inv hs hfetch).raise hready _ _ _ _
  · exact exec_keeps_inv (preIncrement_keeps_inv hs hfetch) hready (decodeWord_wellFormed hdecode)
      (preIncrement_pc_le hfetch) hexec

/-! ### The host's calls -/

theorem setReply_keeps_inv (r : Option Reply) (hs : s.Inv) : (s.setReply r).Inv :=
  hs.of_frame (frame_setReply s r) hs.batch

theorem setKey_keeps_inv (k : KeyCode) (pressed : Bool) (hs : s.Inv) : (s.setKey k pressed).Inv :=
  hs.of_frame (frame_setKey s k pressed) hs.batch

/-- A call that is turned away begins no batch; a call that is not finds the core loaded and not halted. -/
theorem beginBatch_keeps_inv (n : Nat) (hs : s.Inv) : (beginBatch n s).Inv := by
  obtain ⟨r, -, heq⟩ | ⟨hhalt, hready, heq⟩ := beginBatch_cases n s <;> rw [heq]
  · exact hs.of_frame ((frame_setToneCall s none).trans (frame_setReply _ (some r))) hs.batch
  · exact hs.of_frame ((frame_setToneCall s none).trans (frame_setBatch _ (some n))) fun _ => ⟨hready, hhalt⟩

theorem loadProgram_keeps_inv (bytes : List Byte) (hs : s.Inv) : (loadProgram bytes s).Inv := by
  obtain ⟨-, heq⟩ | ⟨-, -, heq⟩ | ⟨hhalt, -, heq⟩ := loadProgram_cases bytes s <;> rw [heq]
  · exact setReply_keeps_inv _ hs
  · exact setReply_keeps_inv _ hs
  · exact ⟨hs.depth, hs.returns, hs.pcBound, hs.armed, fun _ => ⟨rfl, hhalt⟩, fun _ => rfl⟩

/-- A press that ends a wait disarms the callback with it. -/
theorem keyPress_keeps_inv (k : KeyCode) (hs : s.Inv) : (keyPress k s).Inv := by
  obtain ⟨_, -, -, heq⟩ | ⟨-, heq⟩ := keyPress_cases k s <;> rw [heq]
  · exact ⟨hs.depth, hs.returns, hs.pcBound, rfl, hs.batch, hs.loaded⟩
  · exact setKey_keeps_inv k true hs

theorem perform_keeps_inv (a : Transaction) (hs : s.Inv) : (perform a s).Inv := by
  cases a with
  | loadProgram bytes => exact loadProgram_keeps_inv bytes hs
  | runCycleBatch n => exact beginBatch_keeps_inv n hs
  | keyPress k => exact keyPress_keeps_inv k hs
  | keyRelease k => exact setKey_keeps_inv k false hs
  | introspect => exact setReply_keeps_inv _ hs

/-! ### The step -/

theorem step_keeps_inv (hs : s.Inv) (h : step s = .next t) : t.Inv := by
  obtain ⟨_, r, -, -, rfl⟩ | ⟨-, -, rfl⟩ | ⟨k, -, hgate, hiter⟩ | ⟨-, -, rfl⟩ | ⟨a, rest, -, -, rfl⟩ := step_cases h
  · exact hs.of_frame ((frame_setBatch s none).trans (frame_setReply _ (some r))) nofun
  · exact hs.of_frame (frame_endOfBatch s) nofun
  · obtain ⟨hhalt, hready⟩ := batchRefusal_eq_none.mp hgate
    have hs' : (s.setBatch (some k)).Inv := hs.of_frame (frame_setBatch s _) fun _ => ⟨hready, hhalt⟩
    obtain ⟨-, hcycle⟩ | ⟨-, rfl⟩ := hiter
    · exact cycle_keeps_inv hs' hready hcycle
    · exact hs'
  · exact hs
  · exact perform_keeps_inv a (hs.of_frame (frame_setInbox s rest) hs.batch)

end

end Sys2Proof.Machine

open Sys2Proof Sys2Proof.Machine

/-- Settles O54, by the cases of a step: an instruction runs with PC at most 0x1000, so it pushes no higher address and
jumps no higher than Bnnn's 0x10FE, and every fault ends the batch. -/
theorem stepKeepsInvariant : Obligations.StepKeepsInvariant :=
  fun _ _ hs h => step_keeps_inv hs h
end

section
/-! PROOFS. Construction (O22, O52) and introspection (O21). -/

namespace Sys2Proof.Machine

/-! ### What the core holds after construction -/

section
variable (cfg : Config) (fb0 : Framebuffer)

@[simp] theorem State.construct_reg (r : RegNum) : (State.construct cfg fb0).reg r = 0 := by
  simp [State.reg, State.construct]

@[simp] theorem State.construct_isPressed (k : KeyCode) : (State.construct cfg fb0).isPressed k = false := by
  simp [State.isPressed, State.construct]

/-- Right after construction every address reads as unlisted. -/
theorem State.construct_readByte (a : Nat) :
    (State.construct cfg fb0).readByte a = Memory.unlisted cfg.font a := rfl

theorem construct_inv : (State.construct cfg fb0).Inv :=
  ⟨Nat.zero_le _, List.forall_mem_nil _, (by decide : (0x200 : Word).toNat ≤ 0x10FE), rfl, nofun, nofun⟩

theorem construct_memoryCanonical : (State.construct cfg fb0).MemoryCanonical := rfl

end

theorem Memory.unlisted_font (font : Vector Byte fontLen) {a : Nat} (h : a < 80) :
    Memory.unlisted font a = font[a] := dif_pos h

theorem Memory.unlisted_above_font (font : Vector Byte fontLen) {a : Nat} (h : 80 ≤ a) :
    Memory.unlisted font a = 0 := dif_neg (Nat.not_lt.mpr h)

@[simp] theorem Framebuffer.pixel_allOff (px : Fin 64) (py : Fin 32) :
    Framebuffer.pixel Framebuffer.allOff px py = false := by
  simp [Framebuffer.pixel, Framebuffer.allOff]

end Sys2Proof.Machine

open Sys2Proof Sys2Proof.Machine

/-- Settles O22: construction's fields, its memory by the two kinds of unlisted address, and reset's parameters. -/
theorem constructionValues : Obligations.ConstructionValues := by
  constructor
  · intro cfg fb0
    have hfont (j : Nat) (h : j < 80) : (State.construct cfg fb0).readByte j = cfg.font[j] :=
      Memory.unlisted_font cfg.font h
    have habove (a : Nat) (h : 80 ≤ a) : (State.construct cfg fb0).readByte a = 0 :=
      Memory.unlisted_above_font cfg.font h
    exact ⟨_, rfl, State.construct_reg cfg fb0, rfl, rfl, rfl, rfl, rfl, hfont, habove, rfl, rfl, rfl, rfl,
      State.construct_isPressed cfg fb0, rfl, rfl, rfl⟩
  · exact ⟨Config.spec, Framebuffer.allOff, rfl, rfl, rfl, Framebuffer.pixel_allOff, rfl⟩

/-- Settles O52. -/
theorem constructionMeetsInvariant : Obligations.ConstructionMeetsInvariant :=
  fun cfg fb0 => ⟨construct_inv cfg fb0, construct_memoryCanonical cfg fb0⟩

/-- Settles O21: the step records the view as the reply, which the view itself does not show. -/
theorem introspectionOnlyReads : Obligations.IntrospectionOnlyReads := by
  intro s h
  have hframe : Frame [] [.reply, .inbox] s (perform .introspect (s.setInbox s.inbox.tail)) :=
    ((frame_setInbox s _).trans (frame_setReply _ _)).weaken
  exact ⟨_, introspection (s.setInbox s.inbox.tail), step_of_pending h, rfl, fun _ => rfl, rfl, rfl, rfl, rfl, rfl, rfl,
    rfl, rfl, rfl, hframe⟩
end

section
/-! PROOFS. Memory instructions whose addresses lie outside memory (O44). -/

namespace Sys2Proof.Machine

/-- How many bytes of memory, from I on, an instruction accesses (R183, R184, R185, R201). -/
@[simp] def bytesAccessed : Instr → Nat
  | .ldB _ => 3
  | .storeRegs x | .loadRegs x => x.val + 1
  | .drw _ _ n => n
  | _ => 0

/-- An instruction one of whose addresses lies outside memory does nothing but raise the fault that names the lowest
such address (R54); an instruction without addresses never fails the check. -/
theorem exec_of_outOfRange {i : Instr} {s : State} {addr : Nat}
    (h : outOfRange (s.effectiveAddress 0) (bytesAccessed i) = some addr) :
    exec i s = .next (raiseIn i .addressOutOfRange (some addr) s) := by
  cases i with
  | ldB x => rw [bytesAccessed] at h; simp only [exec, execLdB, h]
  | storeRegs x => rw [bytesAccessed] at h; simp only [exec, execStoreRegs, h]
  | loadRegs x => rw [bytesAccessed] at h; simp only [exec, execLoadRegs, h]
  | drw x y n => rw [bytesAccessed] at h; simp only [exec, execDrw, h]
  | _ => exact absurd rfl (outOfRange_eq_some.mp h).1

end Sys2Proof.Machine

open Sys2Proof Sys2Proof.Machine

/-- Settles O44, by the instruction's one bound check over all its addresses, which comes before any effect. -/
theorem memoryInstructionsHaltOutOfRange : Obligations.MemoryInstructionsHaltOutOfRange := by
  intro i len s hform hout
  obtain ⟨hbytes, hpos⟩ : bytesAccessed i = len ∧ len ≠ 0 := by
    obtain ⟨x, rfl, rfl⟩ | ⟨x, rfl, rfl⟩ | ⟨x, rfl, rfl⟩ | ⟨x, y, rfl, hn⟩ := hform
    · exact ⟨rfl, by decide⟩
    · exact ⟨rfl, Nat.succ_ne_zero _⟩
    · exact ⟨rfl, Nat.succ_ne_zero _⟩
    · exact ⟨rfl, hn.ne'⟩
  have hmax : (if s.i.toNat < 4096 then 4096 else s.i.toNat) = max (s.effectiveAddress 0) 4096 := by
    rw [State.effectiveAddress]
    split <;> omega
  have hcheck : outOfRange (s.effectiveAddress 0) (bytesAccessed i) = some (max (s.effectiveAddress 0) 4096) :=
    hbytes ▸ outOfRange_eq_some.mpr ⟨hpos, hout, rfl⟩
  rw [hmax]
  exact ⟨_, exec_of_outOfRange hcheck, raiseIn_haltsWith i _ _ s⟩
end

section
/-! PROOFS. The encoding: the decoder and the encoder are inverse (O2, O3), the decoder and the opcode table agree (O4),
the words that do not decode (O5), and sample words (O1). -/

namespace Sys2Proof

/-! ### The fields of the formats' words -/

section
variable {p : Nat} {x y : RegNum} {nnn : Word} {kk : Byte} {n : Nat}

theorem primary_formatNNN (hp : p < 16) (h : addressFits nnn = true) : bits (formatNNN p nnn) 15 12 = p := by
  have hnnn : nnn.toNat < 4096 := of_decide_eq_true h
  rw [bits_15_12, formatNNN_toNat hp h]
  omega

theorem fieldNNN_formatNNN (hp : p < 16) (h : addressFits nnn = true) : fieldNNN (formatNNN p nnn) = nnn := by
  have hnnn : nnn.toNat < 4096 := of_decide_eq_true h
  apply BitVec.eq_of_toNat_eq
  rw [fieldNNN_toNat, formatNNN_toNat hp h]
  omega

theorem primary_formatXKK (hp : p < 16) : bits (formatXKK p x kk) 15 12 = p := by
  have := kk.isLt
  rw [bits_15_12, formatXKK_toNat hp]
  omega

theorem fieldX_formatXKK (hp : p < 16) : fieldX (formatXKK p x kk) = x := by
  have := kk.isLt
  apply Fin.ext
  rw [fieldX_val, formatXKK_toNat hp]
  omega

theorem fieldKK_formatXKK (hp : p < 16) : fieldKK (formatXKK p x kk) = kk := by
  have := kk.isLt
  apply BitVec.eq_of_toNat_eq
  rw [fieldKK_toNat, formatXKK_toNat hp]
  omega

theorem primary_formatXYN (hp : p < 16) (hn : n < 16) : bits (formatXYN p x y n) 15 12 = p := by
  rw [bits_15_12, formatXYN_toNat hp hn]
  omega

theorem fieldX_formatXYN (hp : p < 16) (hn : n < 16) : fieldX (formatXYN p x y n) = x := by
  apply Fin.ext
  rw [fieldX_val, formatXYN_toNat hp hn]
  omega

theorem fieldY_formatXYN (hp : p < 16) (hn : n < 16) : fieldY (formatXYN p x y n) = y := by
  apply Fin.ext
  rw [fieldY_val, formatXYN_toNat hp hn]
  omega

theorem lowNibble_formatXYN (hp : p < 16) (hn : n < 16) : bits (formatXYN p x y n) 3 0 = n := by
  rw [bits_3_0, formatXYN_toNat hp hn]
  omega

theorem fieldN_formatXYN (hp : p < 16) (hn : n < 16) : fieldN (formatXYN p x y n) = n :=
  lowNibble_formatXYN hp hn

theorem primary_formatXF (hp : p < 16) (hn : n < 256) : bits (formatXF p x n) 15 12 = p := by
  rw [bits_15_12, formatXF_toNat hp hn]
  omega

theorem fieldX_formatXF (hp : p < 16) (hn : n < 256) : fieldX (formatXF p x n) = x := by
  apply Fin.ext
  rw [fieldX_val, formatXF_toNat hp hn]
  omega

theorem lowByte_formatXF (hp : p < 16) (hn : n < 256) : bits (formatXF p x n) 7 0 = n := by
  rw [bits_7_0, formatXF_toNat hp hn]
  omega

end

/-! ### The formats' words rebuilt from their fields -/

section
variable {w : Word} {p n : Nat}

theorem primary_lt (w : Word) : bits w 15 12 < 16 := Nat.mod_lt _ (by decide)

theorem lowNibble_lt (w : Word) : bits w 3 0 < 16 := Nat.mod_lt _ (by decide)

theorem lowByte_lt (w : Word) : bits w 7 0 < 256 := Nat.mod_lt _ (by decide)

theorem formatNNN_fields (hp : bits w 15 12 = p) : formatNNN p (fieldNNN w) = w := by
  subst hp
  apply BitVec.eq_of_toNat_eq
  rw [formatNNN_toNat (primary_lt w) (addressFits_fieldNNN w), fieldNNN_toNat, bits_15_12]
  omega

theorem formatXKK_fields (hp : bits w 15 12 = p) : formatXKK p (fieldX w) (fieldKK w) = w := by
  subst hp
  apply BitVec.eq_of_toNat_eq
  rw [formatXKK_toNat (primary_lt w), fieldX_val, fieldKK_toNat, bits_15_12]
  omega

theorem formatXYN_fields (hp : bits w 15 12 = p) (hn : bits w 3 0 = n) :
    formatXYN p (fieldX w) (fieldY w) n = w := by
  subst hp hn
  apply BitVec.eq_of_toNat_eq
  rw [formatXYN_toNat (primary_lt w) (lowNibble_lt w), fieldX_val, fieldY_val, bits_15_12, bits_3_0]
  omega

theorem formatXF_fields (hp : bits w 15 12 = p) (hn : bits w 7 0 = n) : formatXF p (fieldX w) n = w := by
  subst hp hn
  apply BitVec.eq_of_toNat_eq
  rw [formatXF_toNat (primary_lt w) (lowByte_lt w), fieldX_val, bits_15_12, bits_7_0]
  omega

end

/-! ### Decoding after encoding, format by format -/

/-- Decoding the word of a well-formed instruction reads back its primary nibble, its function code and its operands. -/
theorem decodeWord_encode {i : Instr} (h : i.wellFormed = true) : decodeWord (encode i) = .ok i := by
  cases i
  case cls | ret => rfl
  case jp nnn | call nnn | ldI nnn | jpV0 nnn =>
    have hfits : addressFits nnn = true := h
    simp [encode, decodeWord, primary_formatNNN, fieldNNN_formatNNN, hfits]
  case seImm x kk | sneImm x kk | ldImm x kk | addImm x kk | rnd x kk =>
    simp [encode, decodeWord, primary_formatXKK, fieldX_formatXKK, fieldKK_formatXKK]
  case drw x y n =>
    have hn : n < 16 := of_decide_eq_true h
    simp [encode, decodeWord, primary_formatXYN, fieldX_formatXYN, fieldY_formatXYN, fieldN_formatXYN, hn]
  case seReg x y | sneReg x y =>
    simp [encode, decodeWord, primary_formatXYN, lowNibble_formatXYN, fieldX_formatXYN, fieldY_formatXYN]
  case ldReg x y | orReg x y | andReg x y | xorReg x y | addReg x y | subReg x y | shr x y | subnReg x y | shl x y =>
    simp [encode, decodeWord, decode8, primary_formatXYN, lowNibble_formatXYN, fieldX_formatXYN, fieldY_formatXYN]
  case skp x | sknp x => simp [encode, decodeWord, decodeE, primary_formatXF, lowByte_formatXF, fieldX_formatXF]
  case ldVxDt x | ldVxK x | ldDtVx x | ldStVx x | addI x | ldF x | ldB x | storeRegs x | loadRegs x =>
    simp [encode, decodeWord, decodeF, primary_formatXF, lowByte_formatXF, fieldX_formatXF]

/-! ### Encoding after decoding, layer by layer -/

section
variable {w : Word} {i : Instr}

theorem encode_of_decode8 (hp : bits w 15 12 = 0x8) (h : decode8 w = .ok i) : encode i = w := by
  unfold decode8 at h
  split at h <;> cases h <;> exact formatXYN_fields hp ‹_›

theorem encode_of_decodeE (hp : bits w 15 12 = 0xE) (h : decodeE w = .ok i) : encode i = w := by
  unfold decodeE at h
  split at h <;> cases h <;> exact formatXF_fields hp ‹_›

theorem encode_of_decodeF (hp : bits w 15 12 = 0xF) (h : decodeF w = .ok i) : encode i = w := by
  unfold decodeF at h
  split at h <;> cases h <;> exact formatXF_fields hp ‹_›

theorem encode_of_decodeWord (h : decodeWord w = .ok i) : encode i = w := by
  unfold decodeWord at h
  split at h
  · split at h
    · cases h; exact Eq.symm ‹_›
    · split at h <;> cases h; exact Eq.symm ‹_›
  · cases h; exact formatNNN_fields ‹_›
  · cases h; exact formatNNN_fields ‹_›
  · cases h; exact formatXKK_fields ‹_›
  · cases h; exact formatXKK_fields ‹_›
  · split at h <;> cases h; exact formatXYN_fields ‹_› ‹_›
  · cases h; exact formatXKK_fields ‹_›
  · cases h; exact formatXKK_fields ‹_›
  · exact encode_of_decode8 ‹_› h
  · split at h <;> cases h; exact formatXYN_fields ‹_› ‹_›
  · cases h; exact formatNNN_fields ‹_›
  · cases h; exact formatNNN_fields ‹_›
  · cases h; exact formatXKK_fields ‹_›
  · cases h; exact formatXYN_fields ‹_› rfl
  · exact encode_of_decodeE ‹_› h
  · have := primary_lt w
    have hp : bits w 15 12 = 0xF := by grind
    exact encode_of_decodeF hp h

end

/-! ### The opcode table's rows -/

/-- The word of a well-formed instruction lies in the instruction's row. -/
theorem row_covers_encode : ∀ {i : Instr}, i.wellFormed = true → i.row.covers (encode i) = true
  | .cls => Laws.InRow.cls
  | .ret => Laws.InRow.ret
  | .jp nnn => Laws.InRow.jp nnn
  | .call nnn => Laws.InRow.call nnn
  | .seImm x kk => Laws.InRow.seImm x kk
  | .sneImm x kk => Laws.InRow.sneImm x kk
  | .seReg x y => Laws.InRow.seReg x y
  | .ldImm x kk => Laws.InRow.ldImm x kk
  | .addImm x kk => Laws.InRow.addImm x kk
  | .ldReg x y => Laws.InRow.ldReg x y
  | .orReg x y => Laws.InRow.orReg x y
  | .andReg x y => Laws.InRow.andReg x y
  | .xorReg x y => Laws.InRow.xorReg x y
  | .addReg x y => Laws.InRow.addReg x y
  | .subReg x y => Laws.InRow.subReg x y
  | .shr x y => Laws.InRow.shr x y
  | .subnReg x y => Laws.InRow.subnReg x y
  | .shl x y => Laws.InRow.shl x y
  | .sneReg x y => Laws.InRow.sneReg x y
  | .ldI nnn => Laws.InRow.ldI nnn
  | .jpV0 nnn => Laws.InRow.jpV0 nnn
  | .rnd x kk => Laws.InRow.rnd x kk
  | .drw x y n => Laws.InRow.drw x y n
  | .skp x => Laws.InRow.skp x
  | .sknp x => Laws.InRow.sknp x
  | .ldVxDt x => Laws.InRow.ldVxDt x
  | .ldVxK x => Laws.InRow.ldVxK x
  | .ldDtVx x => Laws.InRow.ldDtVx x
  | .ldStVx x => Laws.InRow.ldStVx x
  | .addI x => Laws.InRow.addI x
  | .ldF x => Laws.InRow.ldF x
  | .ldB x => Laws.InRow.ldB x
  | .storeRegs x => Laws.InRow.storeRegs x
  | .loadRegs x => Laws.InRow.loadRegs x

section
variable {w m : Word}

theorem eq_of_covers_FFFF (h : OpcodeRow.covers ⟨0xFFFF, m⟩ w = true) : w = m :=
  (and_FFFF w).symm.trans (of_decide_eq_true h)

theorem primary_of_covers_F000 (h : OpcodeRow.covers ⟨0xF000, m⟩ w = true) : bits w 15 12 = m.toNat / 4096 := by
  have hm : (w &&& 0xF000).toNat = m.toNat := congrArg _ (of_decide_eq_true h)
  rw [and_F000] at hm
  rw [bits_15_12]
  omega

theorem fields_of_covers_F00F (h : OpcodeRow.covers ⟨0xF00F, m⟩ w = true) :
    bits w 15 12 = m.toNat / 4096 ∧ bits w 3 0 = m.toNat % 16 := by
  have hm : (w &&& 0xF00F).toNat = m.toNat := congrArg _ (of_decide_eq_true h)
  rw [and_F00F] at hm
  rw [bits_15_12, bits_3_0]
  omega

theorem fields_of_covers_F0FF (h : OpcodeRow.covers ⟨0xF0FF, m⟩ w = true) :
    bits w 15 12 = m.toNat / 4096 ∧ bits w 7 0 = m.toNat % 256 := by
  have hm : (w &&& 0xF0FF).toNat = m.toNat := congrArg _ (of_decide_eq_true h)
  rw [and_F0FF] at hm
  rw [bits_15_12, bits_7_0]
  omega

end

/-- A word of a row decodes to an instruction of that row: the row's mask keeps what the decoder's layers read. -/
theorem decodeWord_of_covers {w : Word} {j : Instr} (h : j.row.covers w = true) :
    ∃ i, decodeWord w = .ok i ∧ i.row = j.row := by
  cases j
  case cls | ret =>
    obtain rfl := eq_of_covers_FFFF h
    exact ⟨_, rfl, rfl⟩
  case jp | call | seImm | sneImm | ldImm | addImm | ldI | jpV0 | rnd | drw =>
    have hp := primary_of_covers_F000 h
    simp [decodeWord, hp, Instr.row]
  case seReg | sneReg =>
    obtain ⟨hp, hn⟩ := fields_of_covers_F00F h
    simp [decodeWord, hp, hn, Instr.row]
  case ldReg | orReg | andReg | xorReg | addReg | subReg | shr | subnReg | shl =>
    obtain ⟨hp, hn⟩ := fields_of_covers_F00F h
    simp [decodeWord, decode8, hp, hn, Instr.row]
  case skp | sknp =>
    obtain ⟨hp, hkk⟩ := fields_of_covers_F0FF h
    simp [decodeWord, decodeE, hp, hkk, Instr.row]
  case ldVxDt | ldVxK | ldDtVx | ldStVx | addI | ldF | ldB | storeRegs | loadRegs =>
    obtain ⟨hp, hkk⟩ := fields_of_covers_F0FF h
    simp [decodeWord, decodeF, hp, hkk, Instr.row]

/-! ### The words that do not decode -/

section
variable {w : Word}

theorem decode8_unknown_iff :
    decode8 w = .error (.unknownOpcode w) ↔ bits w 3 0 ∈ [0x8, 0x9, 0xA, 0xB, 0xC, 0xD, 0xF] := by
  have := lowNibble_lt w
  simp only [decode8, List.mem_cons, List.not_mem_nil, or_false]
  split
  case h_10 => grind
  all_goals simp [*]

theorem decodeE_unknown_iff : decodeE w = .error (.unknownOpcode w) ↔ bits w 7 0 ∉ [0x9E, 0xA1] := by
  simp only [decodeE, List.mem_cons, List.not_mem_nil, or_false]
  split
  case h_3 => grind
  all_goals simp [*]

theorem decodeF_unknown_iff :
    decodeF w = .error (.unknownOpcode w) ↔
      bits w 7 0 ∉ [0x07, 0x0A, 0x15, 0x18, 0x1E, 0x29, 0x33, 0x55, 0x65] := by
  simp only [decodeF, List.mem_cons, List.not_mem_nil, or_false]
  split
  case h_10 => grind
  all_goals simp [*]

/-- R86's six lines in the fields the decoder reads. -/
theorem unknownWord_iff : Machine.UnknownWord w ↔
    (bits w 15 12 = 0x0 ∧ w ≠ 0x00E0 ∧ w ≠ 0x00EE) ∨ (bits w 15 12 = 0x5 ∧ bits w 3 0 ≠ 0) ∨
    (bits w 15 12 = 0x8 ∧ bits w 3 0 ∈ [0x8, 0x9, 0xA, 0xB, 0xC, 0xD, 0xF]) ∨
    (bits w 15 12 = 0x9 ∧ bits w 3 0 ≠ 0) ∨ (bits w 15 12 = 0xE ∧ bits w 7 0 ∉ [0x9E, 0xA1]) ∨
    (bits w 15 12 = 0xF ∧ bits w 7 0 ∉ [0x07, 0x0A, 0x15, 0x18, 0x1E, 0x29, 0x33, 0x55, 0x65]) := by
  have hzero : w.toNat < 0x1000 ↔ w.toNat / 0x1000 = 0 := (Nat.div_eq_zero_iff_lt (by decide)).symm
  rw [Machine.UnknownWord, bits_15_12, bits_3_0, bits_7_0, hzero]

/-- Only the layers of primary nibbles 0, 5, 8, 9, E and F reject words. -/
theorem decodeWord_unknown_iff : decodeWord w = .error (.unknownOpcode w) ↔ Machine.UnknownWord w := by
  rw [unknownWord_iff]
  unfold decodeWord
  split
  case h_1 => grind
  case h_6 => split <;> simp [*]
  case h_9 hp => simp [hp, decode8_unknown_iff]
  case h_10 => split <;> simp [*]
  case h_15 hp => simp [hp, decodeE_unknown_iff]
  case h_16 =>
    have := primary_lt w
    have hp : bits w 15 12 = 0xF := by grind
    simp [hp, decodeF_unknown_iff]
  all_goals simp [*]

end

end Sys2Proof

open Sys2Proof Sys2Proof.Machine

/-- Settles O2, format by format: the format's word holds the operands in the fields the decoder reads. -/
theorem decodeOfEncode : Obligations.DecodeOfEncode := by
  intro i h
  refine ⟨decodeWord_encode h, fun rest => ?_⟩
  calc decode (encodeBytes i ++ rest)
      = (decodeWord (joinBytes (highByte (encode i)) (lowByte (encode i)))).map (fun i => (i, rest)) :=
        decode_two _ _ rest
    _ = .ok (i, rest) := by rw [joinBytes_high_low, decodeWord_encode h]; rfl

/-- Settles O3, by the decoder's layers: the bits that choose a layer's row and the row's operands are all of the word. -/
theorem encodeOfDecode : Obligations.EncodeOfDecode :=
  fun _ _ h => ⟨decodeWord_wellFormed h, encode_of_decodeWord h⟩

/-- Settles O4: a word that decodes is the encoding of its instruction, which lies in the instruction's row. -/
theorem decoderAgreesWithOpcodeTable : Obligations.DecoderAgreesWithOpcodeTable :=
  ⟨fun _ _ h => encode_of_decodeWord h ▸ row_covers_encode (decodeWord_wellFormed h), fun _ _ => decodeWord_of_covers⟩

/-- Settles O5, by the decoder's layers: each layer's rejections are one or more of R86's lines. -/
theorem unknownWordsAreThoseListed : Obligations.UnknownWordsAreThoseListed :=
  fun _ => decodeWord_unknown_iff

/-- Settles O1, by running the decoder on each word. -/
theorem sampleWordsDecode : Obligations.SampleWordsDecode :=
  ⟨rfl, rfl, rfl, rfl, rfl, rfl, rfl, rfl, rfl, rfl, rfl, rfl, rfl, rfl, rfl⟩
end

section
/-! PROOFS. The cycle: the fetch that faults (O7), the unknown opcode (O8), the decoded instruction (O6), and the placed
word (O59). -/

namespace Sys2Proof.Machine

/-! ### A cycle, case by case -/

theorem cycle_of_outOfRange {s : State} {addr : Nat} (h : outOfRange s.pc.toNat 2 = some addr) :
    cycle s = .next (raise .addressOutOfRange s.pc none (some addr) s) := by
  simp only [cycle, h]

theorem outOfRange_fetch_eq_none {s : State} (h : s.pc.toNat + 1 < 4096) : outOfRange s.pc.toNat 2 = none :=
  outOfRange_eq_none.mpr (.inr (by omega))

@[simp] theorem preIncrement_opcodeAddress (s : State) : (preIncrement s).opcodeAddress = s.pc := by
  simp [State.opcodeAddress, preIncrement]

theorem cycle_of_unknown {s : State} {e : DecodeError} (hpc : s.pc.toNat + 1 < 4096)
    (h : decodeWord (fetchWord s) = .error e) :
    cycle s = .next (raise .unknownOpcode s.pc (some (fetchWord s)) none (preIncrement s)) := by
  simp only [cycle, outOfRange_fetch_eq_none hpc, decodeAndExecute, h, preIncrement_opcodeAddress]

theorem cycle_of_decoded {s : State} {i : Instr} (hpc : s.pc.toNat + 1 < 4096)
    (h : decodeWord (fetchWord s) = .ok i) : cycle s = exec i (preIncrement s) := by
  simp only [cycle, outOfRange_fetch_eq_none hpc, decodeAndExecute, h]

/-- The step of a cycling core whose fetched word decodes runs the instruction, PC two higher (R109). -/
theorem step_of_decoded {s : State} {left : Nat} {i : Instr} (h : Cycling s left) (hpc : s.pc.toNat + 1 < 4096)
    (hdecode : decodeWord (fetchWord s) = .ok i) :
    step s = exec i ((s.setBatch (some left)).setPc (s.pc + 2)) := by
  have hfetch : fetchWord (s.setBatch (some left)) = fetchWord s := rfl
  rw [step_of_cycling h]
  exact cycle_of_decoded hpc (hfetch ▸ hdecode)

/-- How many iterations a batch has left is nothing that a halt keeps. -/
theorem HaltsWith.of_setBatch {r : FaultRecord} {s t : State} {b : Option Nat} (h : HaltsWith r (s.setBatch b) t) :
    HaltsWith r s t :=
  ⟨h.halt, h.batch, h.reply, ((frame_setBatch s b).trans h.frame).weaken⟩

/-- Two bytes decode, with none left over, exactly when their word does. -/
theorem decode_two_eq_ok {hi lo : Byte} {i : Instr} :
    decode [hi, lo] = .ok (i, []) ↔ decodeWord (joinBytes hi lo) = .ok i := by
  rw [decode_two]
  cases decodeWord (joinBytes hi lo) <;> simp [Except.map]

/-! ### The placed word -/

theorem decodeTableWord_eq_some {w : Nat} {i : Instr} :
    decodeTableWord 16 w = some i ↔ decodeWord (BitVec.ofNat 16 (w % 2 ^ 16)) = .ok i := by
  simp only [decodeTableWord, decode_two, joinBytes_high_low]
  cases decodeWord (BitVec.ofNat 16 (w % 2 ^ 16)) <;> simp [Except.map, Except.toOption]

theorem highByte_toNat (w : Word) : (highByte w).toNat = w.toNat / 256 := by
  have := w.isLt
  rw [highByte, BitVec.toNat_ofNat]
  omega

theorem lowByte_toNat (w : Word) : (lowByte w).toNat = w.toNat % 256 := by
  rw [lowByte, BitVec.toNat_ofNat]

theorem running_cycling (s : State) : Cycling (running s) (s.batch.getD 0 - 1) := by
  obtain hb | hb | ⟨k, hb⟩ : s.batch = none ∨ s.batch = some 0 ∨ ∃ k, s.batch = some (k + 1) := by
    rcases s.batch with _ | _ | k <;> simp
  all_goals simp only [running, hb]
  · exact ⟨rfl, rfl, rfl, rfl⟩
  · exact ⟨rfl, rfl, rfl, rfl⟩
  · exact ⟨hb, rfl, rfl, rfl⟩

theorem frame_running (s : State) : Frame [] [.ready, .halt, .wait, .callback, .batch] s (running s) := by
  have hgates : Frame [] [.ready, .halt, .wait, .callback, .batch] s
      ((((s.setReady true).setHalt none).setWait none).setCallback false) :=
    ((((frame_setReady s true).trans (frame_setHalt _ none)).trans (frame_setWait _ none)).trans
      (frame_setCallback _ false)).weaken
  unfold running
  split
  · exact hgates
  · exact (hgates.trans (frame_setBatch _ _)).weaken

@[simp] theorem running_callbackArmed (s : State) : (running s).callbackArmed = false := by
  unfold running
  split <;> rfl

@[simp] theorem running_mem (s : State) : (running s).mem = s.mem := by
  unfold running
  split <;> rfl

@[simp] theorem running_cfg (s : State) : (running s).cfg = s.cfg := (frame_running s).parts .config (by decide)

theorem fetchablePc_toNat (s : State) :
    (fetchablePc s).toNat = if s.pc.toNat + 1 < 4096 then s.pc.toNat else 0x200 := by
  simp only [fetchablePc, memSize_eq]
  split <;> rfl

theorem fetchablePc_lt (s : State) : (fetchablePc s).toNat + 1 < 4096 := by
  rw [fetchablePc_toNat]
  split <;> omega

theorem placeWord_cycling (op : Word) (s : State) : Cycling (placeWord op s) (s.batch.getD 0 - 1) := by
  obtain ⟨hbatch, hready, hhalt, hwait⟩ := running_cycling s
  exact ⟨hbatch, hready, hhalt, hwait⟩

theorem frame_placeWord (op : Word) (s : State) :
    Frame [] [.pc, .memory, .ready, .halt, .wait, .callback, .batch] s (placeWord op s) :=
  (((frame_running s).trans (frame_setPc _ (fetchablePc s))).trans (frame_writeBytes _ _ _)).weaken

section
variable {op : Word} {s : State}

theorem placeWord_readByte_high (hs : s.MemoryCanonical) :
    (placeWord op s).readByte (fetchablePc s).toNat = highByte op := by
  have := fetchablePc_lt s
  exact State.readByte_writeBytes_inside (k := 0) (s := (running s).setPc (fetchablePc s)) (by simpa using hs)
    (by simp; omega) (by simp)

theorem placeWord_readByte_low (hs : s.MemoryCanonical) :
    (placeWord op s).readByte ((fetchablePc s).toNat + 1) = lowByte op := by
  have := fetchablePc_lt s
  exact State.readByte_writeBytes_inside (k := 1) (s := (running s).setPc (fetchablePc s)) (by simpa using hs)
    (by simp; omega) (by simp)

theorem placeWord_readByte_other {a : Nat} (h0 : a ≠ (fetchablePc s).toNat) (h1 : a ≠ (fetchablePc s).toNat + 1) :
    (placeWord op s).readByte a = s.readByte a :=
  calc (placeWord op s).readByte a
      = ((running s).setPc (fetchablePc s)).readByte a :=
        State.readByte_writeBytes_outside (by simp; omega)
    _ = s.readByte a := by simpa using (frame_running s).parts .memory (by decide) a

/-- The word placed is the word fetched (R56). -/
theorem fetchWord_placeWord (hs : s.MemoryCanonical) : fetchWord (placeWord op s) = op := by
  have hpc : (placeWord op s).pc = fetchablePc s := rfl
  rw [fetchWord, hpc, placeWord_readByte_high hs, placeWord_readByte_low hs, joinBytes_high_low]

theorem step_placeWord {i : Instr} (hs : s.MemoryCanonical) (h : decodeWord op = .ok i) :
    step (placeWord op s) =
      exec i (((placeWord op s).setBatch (some (s.batch.getD 0 - 1))).setPc (fetchablePc s + 2)) :=
  step_of_decoded (placeWord_cycling op s) (fetchablePc_lt s) ((congrArg _ (fetchWord_placeWord hs)).trans h)

end

end Sys2Proof.Machine

open Sys2Proof Sys2Proof.Machine

/-- Settles O7: the bound check of a fetch at 4095 or above names the larger of PC and 4096. -/
theorem fetchOutsideMemoryHalts : Obligations.FetchOutsideMemoryHalts := by
  intro s left h hpc
  have haddr : (if s.pc.toNat = 4095 then 4096 else s.pc.toNat) = max s.pc.toNat 4096 := by split <;> omega
  have hcheck : outOfRange s.pc.toNat 2 = some (max s.pc.toNat 4096) :=
    outOfRange_eq_some.mpr ⟨by decide, by omega, rfl⟩
  rw [haddr, step_of_cycling h]
  exact ⟨_, cycle_of_outOfRange (s := s.setBatch (some left)) hcheck, (raise_haltsWith _ _ _ _ _).of_setBatch⟩

/-- Settles O8: the words of R86 are those that decode to none, and the fetched word is one of them. -/
theorem unknownOpcodeHalts : Obligations.UnknownOpcodeHalts := by
  intro s left w h hpc hw hunknown
  have hfetch : fetchWord s = w := BitVec.eq_of_toNat_eq ((joinBytes_toNat _ _).trans hw.symm)
  subst hfetch
  rw [step_of_cycling h]
  exact ⟨_, cycle_of_unknown (s := s.setBatch (some left)) hpc (decodeWord_unknown_iff.mpr hunknown),
    (raise_haltsWith _ _ _ _ ((s.setPc (s.pc + 2)).setBatch (some left))).of_setBatch⟩

/-- Settles O6: the two bytes at PC are the fetched word. -/
theorem stepRunsDecodedInstruction : Obligations.StepRunsDecodedInstruction :=
  fun s _ _ h hpc hdecode =>
    ⟨s.pc + 2, BitVec.toNat_add s.pc 2, step_of_decoded h hpc (decode_two_eq_ok.mp hdecode)⟩

/-- Settles O59: the core with the word placed is cycling, and the word it fetches is that word. -/
theorem placedWordIsExecuted : Obligations.PlacedWordIsExecuted := by
  intro s w i p hw hs hdecode hp
  obtain rfl : p = (fetchablePc s).toNat := hp.trans (fetchablePc_toNat s).symm
  have hlt := fetchablePc_lt s
  have hop : (BitVec.ofNat 16 (w % 2 ^ 16)).toNat = w := by simp; omega
  rw [decodeTableWord_eq_some] at hdecode
  rw [State.withFetchWord]
  generalize BitVec.ofNat 16 (w % 2 ^ 16) = op at hop hdecode ⊢
  obtain ⟨-, hready, hhalt, hwait⟩ := placeWord_cycling op s
  have hhigh : (highByte op).toNat = w / 256 := by rw [highByte_toNat, hop]
  have hlow : (lowByte op).toNat = w % 256 := by rw [lowByte_toNat, hop]
  have hpc : (fetchablePc s + 2).toNat = (fetchablePc s).toNat + 2 := by
    rw [BitVec.toNat_add]
    exact Nat.mod_eq_of_lt (by simp; omega)
  exact ⟨_, step_placeWord hs hdecode, hpc, (congrArg _ (placeWord_readByte_high hs)).trans hhigh,
    (congrArg _ (placeWord_readByte_low hs)).trans hlow, fun a h0 h1 => placeWord_readByte_other h0 h1,
    hready, hhalt, hwait, running_callbackArmed s, rfl,
    (((frame_placeWord op s).trans (frame_setBatch _ _)).trans (frame_setPc _ _)).weaken⟩
end

section
/-! PROOFS. The batch: paused iterations and batches (O11, O14), the call that begins a batch (O12, O13), and the steps
that add up to the whole call (O15). -/

namespace Sys2Proof.Machine

/-! ### Iterations -/

theorem iteration_of_cycle {s : State} (h : s.wait = none) : iteration s = cycle s := by
  simp [iteration, h]

theorem iteration_of_paused {s : State} {x : RegNum} (h : s.wait = some x) : iteration s = .next s := by
  simp [iteration, h]

/-- The step of a batch with an iteration left is that iteration. -/
theorem step_of_iteration {s : State} {k : Nat} (hb : s.batch = some (k + 1)) (hr : s.ready = true)
    (hh : s.halt = none) : step s = iteration (s.setBatch (some k)) := by
  simp only [step, hb, batchStep, batchRefusal_eq_none.mpr ⟨hh, hr⟩]

/-- All that an iteration can do: pass, or be one cycle. -/
theorem iteration_cases {s t : State} (h : iteration s = .next t) :
    (s.wait ≠ none ∧ t = s) ∨ (s.wait = none ∧ cycle s = .next t) := by
  cases hwait : s.wait with
  | none => exact .inr ⟨rfl, (iteration_of_cycle hwait).symm.trans h⟩
  | some x =>
    cases (iteration_of_paused hwait).symm.trans h
    exact .inl ⟨Option.some_ne_none x, rfl⟩

/-- A cycle, faulting or not, keeps the parts that no instruction writes. -/
theorem cycle_same_fixed {s t : State} {p : Part} (h : cycle s = .next t) (hp : p ∈ fixedParts) : p.Same s t := by
  have hfault : p ∉ faultParts := (by decide : ∀ p ∈ fixedParts, p ∉ faultParts) p hp
  have hpc : p ∉ [Part.pc] := (by decide : ∀ p ∈ fixedParts, p ∉ [Part.pc]) p hp
  have hinc : p.Same s (preIncrement s) := (frame_setPc s _).parts p hpc
  obtain ⟨_, -, rfl⟩ | ⟨-, -, rfl⟩ | ⟨-, i, -, hexec⟩ := cycle_cases h
  · exact (raise_haltsWith _ _ _ _ s).frame.parts p hfault
  · exact hinc.trans ((raise_haltsWith _ _ _ _ (preIncrement s)).frame.parts p hfault)
  · exact hinc.trans (exec_same_fixed hexec hp)

theorem iteration_same_fixed {s t : State} {p : Part} (h : iteration s = .next t) (hp : p ∈ fixedParts) :
    p.Same s t := by
  obtain ⟨-, rfl⟩ | ⟨-, hcycle⟩ := iteration_cases h
  · exact (Frame.refl t).parts p (List.not_mem_nil)
  · exact cycle_same_fixed hcycle hp

/-! ### What the batch's bookkeeping does to a cycle: nothing -/

/-- A meaning does not look at how many iterations the batch has left: with any number of them it raises the same fault,
which ends the batch, or completes alike and leaves the number and Halt alone. -/
def IgnoresBatch (m : State → Host.Outcome State Fault Refusal) : Prop :=
  ∀ (s : State) (b : Option Nat), ∃ t, m s = .next t ∧
    ((t.halt ≠ none ∧ t.batch = none ∧ m (s.setBatch b) = .next t) ∨
      (t.halt = s.halt ∧ t.batch = s.batch ∧ m (s.setBatch b) = .next (t.setBatch b)))

/-- A skip changes PC alone, whatever the batch has left. -/
theorem skipIf_ignoresBatch (c : Bool) (s : State) (b : Option Nat) :
    (skipIf c s).halt = s.halt ∧ (skipIf c s).batch = s.batch ∧
      (.next (skipIf c (s.setBatch b)) : Host.Outcome State Fault Refusal) = .next ((skipIf c s).setBatch b) := by
  cases c <;> exact ⟨rfl, rfl, rfl⟩

@[simp] theorem State.setBatch_effectiveAddress (s : State) (b : Option Nat) (offset : Nat) :
    (s.setBatch b).effectiveAddress offset = s.effectiveAddress offset := rfl

@[simp] theorem State.setBatch_keyOperand (s : State) (b : Option Nat) (x : RegNum) :
    (s.setBatch b).keyOperand x = s.keyOperand x := rfl

/-- The eight instructions that can fault decide it by a check that does not look at the batch. -/
theorem exec_ignoresBatch (i : Instr) : IgnoresBatch (exec i) := by
  intro s b
  cases hout : outOfRange (s.effectiveAddress 0) (bytesAccessed i) with
  | some addr =>
    exact ⟨_, exec_of_outOfRange hout, .inl ⟨nofun, rfl, exec_of_outOfRange (s := s.setBatch b) hout⟩⟩
  | none =>
  cases i with
  | drw x y n =>
    rw [bytesAccessed] at hout
    simp only [exec, execDrw, State.setBatch_effectiveAddress, hout]
    exact ⟨_, rfl, .inr ⟨rfl, rfl, rfl⟩⟩
  | ldB x =>
    rw [bytesAccessed] at hout
    simp only [exec, execLdB, State.setBatch_effectiveAddress, hout]
    exact ⟨_, rfl, .inr ⟨rfl, rfl, rfl⟩⟩
  | storeRegs x =>
    rw [bytesAccessed] at hout
    simp only [exec, execStoreRegs, State.setBatch_effectiveAddress, hout]
    exact ⟨_, rfl, .inr ⟨rfl, rfl, rfl⟩⟩
  | loadRegs x =>
    rw [bytesAccessed] at hout
    simp only [exec, execLoadRegs, State.setBatch_effectiveAddress, hout]
    exact ⟨_, rfl, .inr ⟨rfl, rfl, rfl⟩⟩
  | ret =>
    simp only [exec, execRet, State.setBatch_stack]
    cases s.stack with
    | nil => exact ⟨_, rfl, .inl ⟨nofun, rfl, rfl⟩⟩
    | cons top rest => exact ⟨_, rfl, .inr ⟨rfl, rfl, rfl⟩⟩
  | call nnn =>
    simp only [exec, execCall, State.setBatch_stack, State.setBatch_cfg]
    by_cases hfull : s.cfg.stackDepth ≤ s.stack.length
    · simp only [hfull, if_true]
      exact ⟨_, rfl, .inl ⟨nofun, rfl, rfl⟩⟩
    · simp only [hfull, if_false]
      exact ⟨_, rfl, .inr ⟨rfl, rfl, rfl⟩⟩
  | skp x =>
    simp only [exec, execSkp, State.setBatch_keyOperand]
    cases s.keyOperand x with
    | none => exact ⟨_, rfl, .inl ⟨nofun, rfl, rfl⟩⟩
    | some k => exact ⟨_, rfl, .inr (skipIf_ignoresBatch _ s b)⟩
  | sknp x =>
    simp only [exec, execSknp, State.setBatch_keyOperand]
    cases s.keyOperand x with
    | none => exact ⟨_, rfl, .inl ⟨nofun, rfl, rfl⟩⟩
    | some k => exact ⟨_, rfl, .inr (skipIf_ignoresBatch _ s b)⟩
  | seImm x kk => exact ⟨_, rfl, .inr (skipIf_ignoresBatch _ s b)⟩
  | sneImm x kk => exact ⟨_, rfl, .inr (skipIf_ignoresBatch _ s b)⟩
  | seReg x y => exact ⟨_, rfl, .inr (skipIf_ignoresBatch _ s b)⟩
  | sneReg x y => exact ⟨_, rfl, .inr (skipIf_ignoresBatch _ s b)⟩
  | _ => exact ⟨_, rfl, .inr ⟨rfl, rfl, rfl⟩⟩

theorem cycle_ignoresBatch : IgnoresBatch cycle := by
  intro s b
  have hfetch : fetchWord (s.setBatch b) = fetchWord s := rfl
  simp only [cycle, State.setBatch_pc, hfetch]
  cases outOfRange s.pc.toNat 2 with
  | some addr => exact ⟨_, rfl, .inl ⟨nofun, rfl, rfl⟩⟩
  | none =>
    simp only [decodeAndExecute]
    cases decodeWord (fetchWord s) with
    | error e => exact ⟨_, rfl, .inl ⟨nofun, rfl, rfl⟩⟩
    | ok i => exact exec_ignoresBatch i (preIncrement s) b

theorem iteration_ignoresBatch : IgnoresBatch iteration := by
  intro s b
  cases hwait : s.wait with
  | none =>
    rw [iteration_of_cycle hwait, iteration_of_cycle (s := s.setBatch b) hwait]
    exact cycle_ignoresBatch s b
  | some x =>
    rw [iteration_of_paused hwait, iteration_of_paused (s := s.setBatch b) hwait]
    exact ⟨s, rfl, .inr ⟨rfl, rfl, rfl⟩⟩

theorem gateTone_setBatch (s : State) (b : Option Nat) : gateTone (s.setBatch b) = (gateTone s).setBatch b := by
  by_cases hst : 0 < s.st.toNat <;> simp only [gateTone, State.setBatch_st, hst, if_true, if_false] <;> rfl

/-- The end of a batch is the same however many iterations the batch has left. -/
theorem endOfBatch_setBatch (s : State) (b : Option Nat) : endOfBatch (s.setBatch b) = endOfBatch s := by
  have hgate (u : State) : ((gateTone (u.setBatch b)).setBatch none).setReply (some .ran)
      = ((gateTone u).setBatch none).setReply (some .ran) := by rw [gateTone_setBatch]; rfl
  by_cases hticks : (s.cfg.tickWhilePaused || s.wait.isNone) = true
  · simp only [endOfBatch, State.setBatch_cfg, State.setBatch_wait, hticks, if_true]
    exact hgate (tickTimers s)
  · simp only [endOfBatch, State.setBatch_cfg, State.setBatch_wait, hticks]
    exact hgate s

/-! ### The steps of a batch -/

theorem run_succ {s t : State} (k : Nat) (h : step s = .next t) : core.run (k + 1) s = core.run k t := by
  have hcore : core.step s = .next t := h
  simp only [Host.Core.run, hcore]

/-- Between batches, with nothing pending, the core idles. -/
theorem run_of_idle {s : State} (hbatch : s.batch = none) (hinbox : s.inbox = []) (k : Nat) :
    core.run k s = .next s := by
  induction k with
  | zero => rfl
  | succ k ih =>
    have hstep : step s = .next s := by simp only [step, hbatch, hostStep, hinbox]
    rw [run_succ k hstep, ih]

/-- What follows the loop of R103 in `runCycleBatch`: the end of the batch, or nothing after a fault (R107). -/
def afterLoop (s : State) : Host.Outcome State Fault Refusal :=
  if s.halt.isSome then .next s else .next (endOfBatch s)

theorem afterLoop_of_halted {s : State} (h : s.halt ≠ none) : afterLoop s = .next s :=
  if_pos (Option.isSome_iff_ne_none.mpr h)

theorem afterLoop_of_not_halted {s : State} (h : s.halt = none) : afterLoop s = .next (endOfBatch s) :=
  if_neg (by simp [h])

theorem runCycleBatch_of_refused {n : Nat} {s : State} {r : Reply} (h : batchRefusal s = some r) :
    runCycleBatch n s = .next ((s.setToneCall none).setReply (some r)) := by
  simp only [runCycleBatch, h]

theorem runCycleBatch_of_begins {n : Nat} {s : State} (hhalt : s.halt = none) (hready : s.ready = true) :
    runCycleBatch n s = andThen (batchLoop n (s.setToneCall none)) afterLoop := by
  simp only [runCycleBatch, batchRefusal_eq_none.mpr ⟨hhalt, hready⟩]
  rfl

theorem beginBatch_of_refused {n : Nat} {s : State} {r : Reply} (h : batchRefusal s = some r) :
    beginBatch n s = (s.setToneCall none).setReply (some r) := by
  simp only [beginBatch, h]

theorem beginBatch_of_begins {n : Nat} {s : State} (hhalt : s.halt = none) (hready : s.ready = true) :
    beginBatch n s = (s.setToneCall none).setBatch (some n) := by
  simp only [beginBatch, batchRefusal_eq_none.mpr ⟨hhalt, hready⟩]

/-- An iteration that faults ends the loop, and the batch with it. -/
theorem batchLoop_succ_of_fault {k : Nat} {s t : State} (h : iteration s = .next t) (hhalt : t.halt ≠ none) :
    batchLoop (k + 1) s = .next t := by
  simp only [batchLoop, h, andThen, Option.isSome_iff_ne_none.mpr hhalt, if_true]

theorem batchLoop_succ_of_completes {k : Nat} {s t : State} (h : iteration s = .next t) (hhalt : t.halt = none) :
    batchLoop (k + 1) s = batchLoop k t := by
  simp [batchLoop, h, andThen, hhalt]

/-- From a batch under way with k iterations left, k + 1 steps do what the loop and its end do. The steps count
iterations down in `State.batch`, which the loop leaves alone and no iteration looks at. -/
theorem run_of_batch {k : Nat} {s : State} (hhalt : s.halt = none) (hready : s.ready = true) (hbatch : s.batch = none)
    (hinbox : s.inbox = []) : core.run (k + 1) (s.setBatch (some k)) = andThen (batchLoop k s) afterLoop := by
  induction k generalizing s with
  | zero =>
    have hend : step (s.setBatch (some 0)) = .next (endOfBatch s) := by
      rw [step_of_batch_end (s := s.setBatch (some 0)) rfl hready hhalt, endOfBatch_setBatch]
    rw [run_succ 0 hend]
    exact (afterLoop_of_not_halted hhalt).symm
  | succ k ih =>
    have hstep : step (s.setBatch (some (k + 1))) = iteration (s.setBatch (some k)) :=
      step_of_iteration (s := s.setBatch (some (k + 1))) rfl hready hhalt
    obtain ⟨t, ht, hcase⟩ := iteration_ignoresBatch s (some k)
    have hinbox' : t.inbox = s.inbox := iteration_same_fixed (p := .inbox) ht (by decide)
    obtain ⟨hfault, hbatch', ht'⟩ | ⟨hhalt', hbatch', ht'⟩ := hcase
    · rw [run_succ _ (hstep.trans ht'), run_of_idle hbatch' (hinbox'.trans hinbox), batchLoop_succ_of_fault ht hfault]
      exact (afterLoop_of_halted hfault).symm
    · have hready' : t.ready = s.ready := iteration_same_fixed (p := .ready) ht (by decide)
      rw [run_succ _ (hstep.trans ht'), batchLoop_succ_of_completes ht (hhalt'.trans hhalt)]
      exact ih (hhalt'.trans hhalt) (hready'.trans hready) (hbatch'.trans hbatch) (hinbox'.trans hinbox)

/-- The loop of a paused core passes (R106). -/
theorem batchLoop_of_paused {s : State} {x : RegNum} (hhalt : s.halt = none) (hwait : s.wait = some x) (n : Nat) :
    batchLoop n s = .next s := by
  induction n with
  | zero => rfl
  | succ n ih => rw [batchLoop_succ_of_completes (iteration_of_paused hwait) hhalt, ih]

/-! ### The call that begins a batch -/

theorem batchRefusal_of_halted {s : State} (h : s.halt ≠ none) : batchRefusal s = some .halted := by
  simp [batchRefusal, Option.isSome_iff_ne_none, h]

theorem batchRefusal_of_notLoaded {s : State} (hhalt : s.halt = none) (hready : s.ready = false) :
    batchRefusal s = some .notLoaded := by
  simp [batchRefusal, hhalt, hready]

/-- A call of runCycleBatch that is turned away is taken from the pending ones and answered, and does no more. -/
theorem step_of_refused_batch {n : Nat} {s : State} {r : Reply} (h : Pending (.runCycleBatch n) s)
    (hr : batchRefusal s = some r) :
    ∃ t, step s = .next t ∧ t.reply = some r ∧ t.toneCall = none ∧ t.inbox = s.inbox.tail ∧
      Frame [] [.inbox, .reply, .toneCall] s t := by
  have hrefuse : perform (.runCycleBatch n) (s.setInbox s.inbox.tail)
      = ((s.setInbox s.inbox.tail).setToneCall none).setReply (some r) := beginBatch_of_refused hr
  rw [step_of_pending h, hrefuse]
  exact ⟨_, rfl, rfl, rfl, rfl,
    (((frame_setInbox s _).trans (frame_setToneCall _ none)).trans (frame_setReply _ _)).weaken⟩

end Sys2Proof.Machine

open Sys2Proof Sys2Proof.Machine

/-- Settles O15, by induction over the iterations: a call that is turned away or faults leaves the core idle for the
steps that remain. -/
theorem batchStepsAddUpToTransaction : Obligations.BatchStepsAddUpToTransaction := by
  intro n s hbatch hinbox
  have hbegin : step s = .next (beginBatch n (s.setInbox [])) := by
    simpa [hinbox, perform] using step_of_pending (t := .runCycleBatch n) ⟨hbatch, by simp [hinbox]⟩
  rw [run_succ _ hbegin]
  obtain ⟨r, hr, heq⟩ | ⟨hhalt, hready, heq⟩ := beginBatch_cases n (s.setInbox []) <;> rw [heq]
  · rw [runCycleBatch_of_refused hr]
    exact run_of_idle (s := ((s.setInbox []).setToneCall none).setReply (some r)) hbatch rfl _
  · rw [runCycleBatch_of_begins hhalt hready]
    exact run_of_batch (s := (s.setInbox []).setToneCall none) hhalt hready hbatch rfl

/-- Settles O14: the loop passes, and the batch's end follows. -/
theorem pausedBatchExecutesNothing : Obligations.PausedBatchExecutesNothing := by
  intro n s x hready hhalt hwait
  rw [runCycleBatch_of_begins hhalt hready, batchLoop_of_paused (s := s.setToneCall none) hhalt hwait]
  exact afterLoop_of_not_halted hhalt

/-- Settles O11: the step is the iteration, and a paused core's iteration passes. -/
theorem pausedIterationDoesNothing : Obligations.PausedIterationDoesNothing :=
  fun s left _ hbatch hready hhalt hwait =>
    (step_of_iteration hbatch hready hhalt).trans (iteration_of_paused (s := s.setBatch (some left)) hwait)

/-- Settles O12: a core with no program turns the call away. -/
theorem batchBeforeLoadChangesNothing : Obligations.BatchBeforeLoadChangesNothing :=
  fun _ _ h hhalt hready => step_of_refused_batch h (batchRefusal_of_notLoaded hhalt hready)

/-- Settles O13, by the two sides of the batch's gate. -/
theorem batchBeginsUnlessHalted : Obligations.BatchBeginsUnlessHalted := by
  refine ⟨fun s n h hhalt => step_of_refused_batch h (batchRefusal_of_halted hhalt), fun s n h hhalt hready => ?_⟩
  have hbegin : perform (.runCycleBatch n) (s.setInbox s.inbox.tail)
      = ((s.setInbox s.inbox.tail).setToneCall none).setBatch (some n) := beginBatch_of_begins hhalt hready
  rw [step_of_pending h, hbegin]
  exact ⟨_, rfl, rfl, rfl, rfl,
    (((frame_setInbox s _).trans (frame_setToneCall _ none)).trans (frame_setBatch _ _)).weaken⟩
end

section
/-! PROOFS. Key events: the press that ends a wait (O19), and those that only set a level (O20). -/

namespace Sys2Proof.Machine

/-- Taking a key event from the pending ones and setting the key's level does no more. -/
theorem setKey_setInbox_effect (s : State) (l : List Transaction) (k : KeyCode) (p : Bool) :
    (∀ j, ((s.setInbox l).setKey k p).isPressed j = if j = k then p else s.isPressed j) ∧
      ((s.setInbox l).setKey k p).inbox = l ∧ Frame [] [.keys, .inbox] s ((s.setInbox l).setKey k p) :=
  ⟨fun j => State.isPressed_setKey (s.setInbox l) k j p, rfl, ((frame_setInbox s l).trans (frame_setKey _ k p)).weaken⟩

theorem keyPress_of_waiting {s : State} {k : KeyCode} {x : RegNum} (hhalt : s.halt = none) (hwait : s.wait = some x) :
    keyPress k s = (((s.setKey k true).setReg x (BitVec.ofNat 8 k.val)).setWait none).setCallback false := by
  simp only [keyPress, State.setKey_halt, State.setKey_wait, hhalt, hwait]

theorem keyPress_otherwise {s : State} {k : KeyCode} (h : s.wait = none ∨ s.halt ≠ none) :
    keyPress k s = s.setKey k true := by
  obtain ⟨_, hhalt, hwait, -⟩ | ⟨-, heq⟩ := keyPress_cases k s
  · simp [hhalt, hwait] at h
  · exact heq

end Sys2Proof.Machine

open Sys2Proof Sys2Proof.Machine

/-- Settles O19, from the key's level on: the register, the wait and the callback follow it. -/
theorem keyPressEndsWait : Obligations.KeyPressEndsWait := by
  intro s k x h hhalt hwait
  obtain ⟨hlevels, -, hframe⟩ := setKey_setInbox_effect s s.inbox.tail k true
  have hpress : perform (.keyPress k) (s.setInbox s.inbox.tail) = _ := keyPress_of_waiting hhalt hwait
  have hcode : (BitVec.ofNat 8 k.val).toNat = k.val := Nat.mod_eq_of_lt (by omega)
  rw [step_of_pending h, hpress]
  exact ⟨_, rfl, (congrArg _ (State.reg_setReg_same _ x _)).trans hcode, rfl, rfl, hlevels, rfl,
    (((hframe.trans (frame_setReg _ x _)).trans (frame_setWait _ none)).trans (frame_setCallback _ false)).weaken⟩

/-- Settles O20: either event only sets the key's level. -/
theorem keyEventsOtherwiseSetLevel : Obligations.KeyEventsOtherwiseSetLevel := by
  constructor
  · intro s k h hno
    have hpress : perform (.keyPress k) (s.setInbox s.inbox.tail) = _ := keyPress_otherwise hno
    rw [step_of_pending h, hpress]
    exact ⟨_, rfl, setKey_setInbox_effect s _ k true⟩
  · intro s k h
    exact ⟨_, step_of_pending h, setKey_setInbox_effect s _ k false⟩
end

section
/-! PROOFS. Control flow: jumps (O24, O30), calls and returns (O25 to O27), and skips (O28, O29). -/

namespace Sys2Proof.Machine

/-! ### Calls and returns, by the state of the stack -/

theorem exec_call_of_room {s : State} (nnn : Word) (h : s.stack.length < s.cfg.stackDepth) :
    exec (.call nnn) s = .next ((s.push s.pc).setPc nnn) := if_neg (Nat.not_le.mpr h)

theorem exec_call_of_full {s : State} (nnn : Word) (h : s.cfg.stackDepth ≤ s.stack.length) :
    exec (.call nnn) s = .next (raiseIn (.call nnn) .stackOverflow none s) := if_pos h

theorem exec_ret_of_cons {s : State} {top : Word} {rest : List Word} (h : s.stack = top :: rest) :
    exec .ret s = .next ((s.setStack rest).setPc top) := by
  simp only [exec, execRet, h]

theorem exec_ret_of_empty {s : State} (h : s.stack = []) :
    exec .ret s = .next (raiseIn .ret .stackUnderflow none s) := by
  simp only [exec, execRet, h]

/-- A new stack and then a new PC: the frame that a call and a return share. -/
theorem frame_setStack_setPc (s : State) (l : List Word) (w : Word) :
    Frame [] [.stack, .pc] s ((s.setStack l).setPc w) := (frame_setStack s l).trans (frame_setPc _ w)

/-! ### Skips on a comparison of two bytes -/

theorem skipIf_beq_spec (a b : Byte) (s : State) :
    (skipIf (a == b) s).pc.toNat = (if a = b then (s.pc.toNat + 2) % 65536 else s.pc.toNat) ∧
      Frame [] [.pc] s (skipIf (a == b) s) := by
  simpa only [beq_iff_eq] using skipIf_spec (a == b) s

theorem skipIf_bne_spec (a b : Byte) (s : State) :
    (skipIf (a != b) s).pc.toNat = (if a = b then s.pc.toNat else (s.pc.toNat + 2) % 65536) ∧
      Frame [] [.pc] s (skipIf (a != b) s) := by
  simpa only [bne_iff_ne, ne_eq, ite_not] using skipIf_spec (a != b) s

/-! ### The sum of Bnnn -/

theorem toNat_zext16 (b : Byte) : (zext16 b).toNat = b.toNat := BitVec.toNat_setWidth_of_le (by decide)

end Sys2Proof.Machine

open Sys2Proof Sys2Proof.Machine

/-- Settles O25, by whether the stack has room. -/
theorem callPushesOrOverflows : Obligations.CallPushesOrOverflows := by
  constructor
  · intro nnn s hroom
    exact ⟨_, exec_call_of_room nnn hroom, rfl, rfl, frame_setStack_setPc s _ nnn⟩
  · intro nnn s hfull
    exact ⟨_, exec_call_of_full nnn hfull, raiseIn_haltsWith _ _ _ s⟩

/-- Settles O26, by whether the stack holds an entry. -/
theorem returnPopsOrUnderflows : Obligations.ReturnPopsOrUnderflows := by
  constructor
  · intro s top rest hstack
    exact ⟨_, exec_ret_of_cons hstack, rfl, rfl, frame_setStack_setPc s rest top⟩
  · intro s hempty
    exact ⟨_, exec_ret_of_empty hempty, raiseIn_haltsWith _ _ _ s⟩

/-- Settles O27: the call leaves PC on top of the old stack, and the return pops just that. -/
theorem returnUndoesCall : Obligations.ReturnUndoesCall := by
  intro nnn s t r hroom hcall hstack
  obtain rfl : (s.push s.pc).setPc nnn = t := Host.Outcome.next.inj ((exec_call_of_room nnn hroom).symm.trans hcall)
  have hpushed : r.stack = s.pc :: s.stack := hstack
  exact ⟨_, exec_ret_of_cons hpushed, rfl, rfl⟩

/-- Settles O24. -/
theorem jumpSetsPc : Obligations.JumpSetsPc :=
  fun nnn s => ⟨_, rfl, rfl, frame_setPc s nnn⟩

/-- Settles O28: each form is a skip on the comparison of Vx with kk. -/
theorem skipsOnImmediate : Obligations.SkipsOnImmediate :=
  fun x kk s => ⟨⟨_, rfl, skipIf_beq_spec (s.reg x) kk s⟩, ⟨_, rfl, skipIf_bne_spec (s.reg x) kk s⟩⟩

/-- Settles O29: each form is a skip on the comparison of Vx with Vy. -/
theorem skipsOnRegisters : Obligations.SkipsOnRegisters :=
  fun x y s => ⟨⟨_, rfl, skipIf_beq_spec (s.reg x) (s.reg y) s⟩, ⟨_, rfl, skipIf_bne_spec (s.reg x) (s.reg y) s⟩⟩

/-- Settles O30: the sum is taken at PC's 16 bits, to which V0 is extended with its value kept. -/
theorem jumpPlusV0 : Obligations.JumpPlusV0 := by
  intro nnn s
  have hsum : (nnn + zext16 (s.reg 0)).toNat = (nnn.toNat + (s.reg 0).toNat) % 65536 := by
    rw [BitVec.toNat_add, toNat_zext16]
  exact ⟨_, rfl, hsum, frame_setPc s _⟩
end

section
/-! PROOFS. Loads, arithmetic and logic: loads and moves (O31), the operations that write no flag (O32, O33), those that
write VF before their result (O34 to O37), and the random byte (O38). -/

namespace Sys2Proof.Machine

/-! ### A flag, then a result that is computed after it -/

section
variable (s : State) (f b : Byte)

theorem State.reg_setFlag (r : RegNum) : (s.setFlag f).reg r = if r = vf then f else s.reg r :=
  State.reg_setReg s vf r f

@[simp] theorem State.reg_setFlag_vf : (s.setFlag f).reg vf = f := State.reg_setReg_same s vf f

@[simp] theorem State.reg_setFlag_other {r : RegNum} (h : r ≠ vf) : (s.setFlag f).reg r = s.reg r :=
  State.reg_setReg_other s f h

/-- A result that goes elsewhere leaves the flag in VF. -/
theorem State.reg_vf_setFlag_setReg {x : RegNum} (hx : x ≠ vf) : ((s.setFlag f).setReg x b).reg vf = f := by
  rw [State.reg_setReg_other _ b hx.symm, State.reg_setFlag_vf]

end

/-! ### The flags as conditions on values -/

section
variable (a b : Byte)

theorem flagByte_decide (p : Prop) [Decidable p] : flagByte (decide p) = if p then 1 else 0 := by
  simp only [flagByte, decide_eq_true_eq]

theorem carryFlag_eq : carryFlag a b = if a.toNat + b.toNat > 255 then 1 else 0 := flagByte_decide _

theorem greaterFlag_eq : greaterFlag a b = if a.toNat > b.toNat then 1 else 0 := flagByte_decide _

theorem greaterFlag_toNat : (greaterFlag a b).toNat = if a.toNat > b.toNat then 1 else 0 := by
  rw [greaterFlag_eq, apply_ite BitVec.toNat]
  rfl

theorem lowBitFlag_toNat : (lowBitFlag a).toNat = a.toNat % 2 :=
  (BitVec.toNat_and a 1).trans (Nat.and_one_is_mod _)

/-- Bit 7 of a byte is set exactly when the byte is at least 0x80. -/
theorem and_highBit_ne_zero_iff : a &&& 0x80 ≠ 0 ↔ a.toNat ≥ 0x80 := by
  have hbit : a.getLsbD 7 = decide (a.toNat ≥ 0x80) := BitVec.msb_eq_decide a
  rw [show (0x80 : Byte) = BitVec.twoPow 8 7 by decide, BitVec.and_twoPow, hbit]
  by_cases h : a.toNat ≥ 0x80 <;> simp [h]

theorem highBitFlag_eq : highBitFlag a = if a.toNat ≥ 0x80 then 1 else 0 := by
  simp only [highBitFlag, flagByte_decide, and_highBit_ne_zero_iff]

/-! ### Byte arithmetic as arithmetic modulo 256 -/

theorem byte_sub_toNat : (a - b).toNat = (a.toNat + 256 - b.toNat) % 256 := by
  have := b.isLt
  rw [BitVec.toNat_sub]
  omega

theorem byte_shiftLeft_one_toNat : (a <<< 1).toNat = a.toNat * 2 % 256 := by
  rw [BitVec.toNat_shiftLeft, Nat.shiftLeft_eq]

theorem byte_shiftRight_one_toNat : (a >>> 1).toNat = a.toNat / 2 := by
  rw [BitVec.toNat_ushiftRight, Nat.shiftRight_eq_div_pow]

/-- The low bit, shifted out as well, leaves nothing. -/
theorem lowBitFlag_shiftRight_one : lowBitFlag a >>> 1 = 0 := by
  apply BitVec.eq_of_toNat_eq
  rw [byte_shiftRight_one_toNat, lowBitFlag_toNat]
  exact Nat.div_eq_of_lt (Nat.mod_lt _ (by decide))

theorem highBitFlag_shiftLeft_one : highBitFlag a <<< 1 = if a.toNat ≥ 0x80 then 2 else 0 := by
  rw [highBitFlag_eq]
  split <;> rfl

end

/-! ### Subtraction -/

/-- What 8xy5 and 8xy7 share: the flag of Vm - Vk goes into VF, and then Vm - Vk, read anew, into Vx (R157, R159). -/
def State.subInto (s : State) (x m k : RegNum) : State :=
  let s1 := s.setFlag (greaterFlag (s.reg m) (s.reg k))
  s1.setReg x (s1.reg m - s1.reg k)

section
variable (s : State) (x y m k : RegNum)

theorem exec_subReg_eq : exec (.subReg x y) s = .next (s.subInto x x y) := rfl

theorem exec_subnReg_eq : exec (.subnReg x y) s = .next (s.subInto x y x) := rfl

theorem frame_subInto : Frame [x, vf] [] s (s.subInto x m k) := frame_flag_then_reg s _ _ x

theorem reg_vf_subInto {x : RegNum} (hx : x ≠ vf) :
    (s.subInto x m k).reg vf = greaterFlag (s.reg m) (s.reg k) :=
  State.reg_vf_setFlag_setReg s _ _ hx

/-- An operand that is VF reads as the flag. -/
theorem toNat_reg_subInto : ((s.subInto x m k).reg x).toNat =
    ((if m = vf then greaterFlag (s.reg m) (s.reg k) else s.reg m).toNat + 256 -
      (if k = vf then greaterFlag (s.reg m) (s.reg k) else s.reg k).toNat) % 256 := by
  rw [State.subInto, State.reg_setReg_same, byte_sub_toNat, State.reg_setFlag, State.reg_setFlag]

/-- A register minus itself is 0, whatever the flag is. -/
theorem reg_subInto_self : (s.subInto x m m).reg x = 0 :=
  (State.reg_setReg_same _ x _).trans (BitVec.sub_self _)

end

end Sys2Proof.Machine

open Sys2Proof Sys2Proof.Machine

/-- Settles O34: the sum is of the old registers, and the flag stays where the sum does not overwrite it. -/
theorem addSetsCarry : Obligations.AddSetsCarry := by
  intro x y s
  refine ⟨_, rfl, ?_, fun hx => ?_, frame_flag_then_reg s _ _ x⟩
  · rw [State.reg_setReg_same, BitVec.toNat_add]
  · rw [State.reg_vf_setFlag_setReg _ _ _ hx, carryFlag_eq]

/-- Settles O35: the difference is of the registers after the flag write, so the flag is its subtrahend where y = 15 and
its minuend where x = 15. -/
theorem subtractByCases : Obligations.SubtractByCases := by
  rintro x y s _ _ _ rfl rfl rfl
  have hdiff := toNat_reg_subInto s x x y
  refine ⟨_, exec_subReg_eq s x y, frame_subInto s x x y, fun hx hy => ?_, ?_, ?_, ?_⟩
  · rw [if_neg hx, if_neg hy] at hdiff
    exact ⟨(reg_vf_subInto s x y hx).trans (greaterFlag_eq _ _), hdiff⟩
  · rintro hx rfl
    rw [if_neg hx, if_pos rfl, ← reg_vf_subInto s x vf hx] at hdiff
    exact ⟨(reg_vf_subInto s x vf hx).trans (greaterFlag_eq _ _), hdiff⟩
  · rintro rfl hy
    rwa [if_pos rfl, if_neg hy, greaterFlag_toNat] at hdiff
  · rintro rfl rfl
    exact reg_subInto_self s vf vf

/-- Settles O36: the flag is the difference's minuend where y = 15 and its subtrahend where x = 15. -/
theorem reverseSubtractByCases : Obligations.ReverseSubtractByCases := by
  rintro x y s _ _ _ rfl rfl rfl
  have hdiff := toNat_reg_subInto s x y x
  refine ⟨_, exec_subnReg_eq s x y, frame_subInto s x y x, fun hx hy => ?_, ?_, ?_, ?_⟩
  · rw [if_neg hy, if_neg hx] at hdiff
    exact ⟨(reg_vf_subInto s y x hx).trans (greaterFlag_eq _ _), hdiff⟩
  · rintro hx rfl
    rw [if_pos rfl, if_neg hx, ← reg_vf_subInto s vf x hx] at hdiff
    exact ⟨(reg_vf_subInto s vf x hx).trans (greaterFlag_eq _ _), hdiff⟩
  · rintro rfl hy
    rwa [if_neg hy, if_pos rfl, greaterFlag_toNat] at hdiff
  · rintro rfl rfl
    exact reg_subInto_self s vf vf

/-- Settles O37: the shift is of Vx after the flag write, so of the flag itself where x = 15. -/
theorem shiftsByCases : Obligations.ShiftsByCases := by
  intro x y s
  constructor
  · refine ⟨_, rfl, frame_flag_then_reg s _ _ x, fun hx => ?_, ?_⟩
    · rw [State.reg_vf_setFlag_setReg _ _ _ hx, State.reg_setReg_same, State.reg_setFlag_other _ _ hx]
      exact ⟨lowBitFlag_toNat _, byte_shiftRight_one_toNat _⟩
    · rintro rfl
      rw [State.reg_setReg_same, State.reg_setFlag_vf, lowBitFlag_shiftRight_one]
  · refine ⟨_, rfl, frame_flag_then_reg s _ _ x, fun hx => ?_, ?_⟩
    · rw [State.reg_vf_setFlag_setReg _ _ _ hx, State.reg_setReg_same, State.reg_setFlag_other _ _ hx]
      exact ⟨highBitFlag_eq _, byte_shiftLeft_one_toNat _⟩
    · rintro rfl
      rw [State.reg_setReg_same, State.reg_setFlag_vf, highBitFlag_shiftLeft_one]

/-- Settles O31: each form is one register write. -/
theorem loadImmediateAndMove : Obligations.LoadImmediateAndMove :=
  ⟨fun x kk s => ⟨_, rfl, State.reg_setReg_same s x kk, frame_setReg s x kk⟩,
    fun x y s => ⟨_, rfl, State.reg_setReg_same s x (s.reg y), frame_setReg s x (s.reg y)⟩⟩

/-- Settles O32: the sum is taken at the register's 8 bits. -/
theorem addImmediateWraps : Obligations.AddImmediateWraps := by
  intro x kk s
  refine ⟨_, rfl, ?_, frame_setReg s x _⟩
  rw [State.reg_setReg_same, BitVec.toNat_add]

/-- Settles O33: the operations on bytes act on each bit alike. -/
theorem bitwiseOperations : Obligations.BitwiseOperations := by
  intro x y s
  refine ⟨⟨_, rfl, fun b => ?_, frame_setReg s x _⟩, ⟨_, rfl, fun b => ?_, frame_setReg s x _⟩,
    ⟨_, rfl, fun b => ?_, frame_setReg s x _⟩⟩ <;> rw [State.reg_setReg_same]
  · exact BitVec.getLsbD_or
  · exact BitVec.getLsbD_and
  · exact BitVec.getLsbD_xor

/-- Settles O38: the byte is drawn, which counts the draw, and its conjunction with kk has no bit that kk lacks. -/
theorem randomByteIsMasked : Obligations.RandomByteIsMasked := by
  intro x kk s
  have hmask (r : Byte) : r &&& kk &&& ~~~kk = 0 := by
    rw [BitVec.and_assoc, BitVec.and_not_self]
    exact BitVec.and_zero
  have hreg := State.reg_setReg_same s.drawn x (s.rand8 &&& kk)
  exact ⟨_, s.rand8, rfl, rfl, hreg, hreg.symm ▸ hmask _, rfl, (frame_setDraws s _).trans (frame_setReg _ x _)⟩
end

section
/-! PROOFS. The index register (O39, O40) and memory transfers in range: Fx33 (O41), Fx55 (O42), Fx65 (O43), and a load
after a store (O45). -/

namespace Sys2Proof.Machine

/-! ### New values of I -/

theorem toNat_add_zext16 (w : Word) (b : Byte) : (w + zext16 b).toNat = (w.toNat + b.toNat) % 65536 := by
  rw [BitVec.toNat_add, toNat_zext16]

/-- Five times the largest byte fits in 16 bits, so the product does not wrap. -/
theorem toNat_zext16_mul_five (b : Byte) : (zext16 b * 5).toNat = b.toNat * 5 := by
  have hfits : b.toNat * 5 < 2 ^ 16 := by omega
  rw [BitVec.toNat_mul, toNat_zext16]
  exact Nat.mod_eq_of_lt hfits

/-! ### Transfers whose addresses all lie in memory -/

section
variable {s : State} {x : RegNum}

theorem outOfRange_effectiveAddress_eq_none {last : Nat} (h : s.i.toNat + last < 4096) :
    outOfRange (s.effectiveAddress 0) (last + 1) = none :=
  outOfRange_eq_none.mpr (.inr h)

theorem exec_ldB_of_inRange (h : s.i.toNat + 2 < 4096) :
    exec (.ldB x) s = .next (s.writeBytes (s.effectiveAddress 0) (decimalDigits (s.reg x))) := by
  simp only [exec, execLdB, outOfRange_effectiveAddress_eq_none h]

theorem exec_storeRegs_of_inRange (h : s.i.toNat + x.val < 4096) :
    exec (.storeRegs x) s = .next (s.writeBytes (s.effectiveAddress 0) (s.regsUpTo x)) := by
  simp only [exec, execStoreRegs, outOfRange_effectiveAddress_eq_none h]

theorem exec_loadRegs_of_inRange (h : s.i.toNat + x.val < 4096) :
    exec (.loadRegs x) s =
      .next (s.setRegs (loadInto s.v 0 (s.readBytes (s.effectiveAddress 0) (x.val + 1)))) := by
  simp only [exec, execLoadRegs, outOfRange_effectiveAddress_eq_none h]

/-- Bytes stored at I are read back, each at its offset. -/
theorem readByte_effectiveAddress_writeBytes {l : List Byte} {k : Nat} (hs : s.MemoryCanonical)
    (hin : s.i.toNat + l.length ≤ 4096) (hk : k < l.length) :
    (s.writeBytes (s.effectiveAddress 0) l).readByte (s.effectiveAddress k) = l[k] :=
  State.readByte_writeBytes_inside hs hin hk

/-- Loading x + 1 bytes from V0 on replaces the registers up to Vx. -/
theorem reg_setRegs_loadInto (s : State) (x r : RegNum) :
    (s.setRegs (loadInto s.v 0 (s.readBytes (s.effectiveAddress 0) (x.val + 1)))).reg r =
      if r ≤ x then s.readByte (s.effectiveAddress r.val) else s.reg r := by
  have hfits : 0 + (s.readBytes (s.effectiveAddress 0) (x.val + 1)).length ≤ 16 := by
    rw [length_readBytes]
    omega
  have hread := getElem_loadInto s.v 0 _ hfits r.val r.isLt
  simp only [length_readBytes, getElem_readBytes, dite_eq_ite] at hread
  rw [State.reg, State.setRegs_v, hread]
  exact if_congr (by simp only [Fin.le_def]; omega) rfl rfl

end

end Sys2Proof.Machine

open Sys2Proof Sys2Proof.Machine

/-- Settles O41: the three digits are stored at I, and each is read back at its offset. -/
theorem decimalDigitsStored : Obligations.DecimalDigitsStored := by
  intro x s hin hs
  have hdigit (k : Nat) (hk : k < 3) :=
    readByte_effectiveAddress_writeBytes (l := decimalDigits (s.reg x)) hs hin hk
  refine ⟨_, exec_ldB_of_inRange hin, ?_, ?_, ?_, fun a ha => State.readByte_writeBytes_outside ha,
    frame_writeBytes s _ _⟩
  · rw [hdigit 0 (by decide)]
    exact BitVec.toNat_udiv
  · rw [hdigit 1 (by decide)]
    exact BitVec.toNat_udiv.trans (congrArg (· / 10) BitVec.toNat_umod)
  · rw [hdigit 2 (by decide)]
    exact BitVec.toNat_umod

/-- Settles O42: the byte stored at offset r is the register Vr. -/
theorem registersStored : Obligations.RegistersStored := by
  intro x s hin hs
  have hlen := length_regsUpTo s x
  refine ⟨_, exec_storeRegs_of_inRange hin, fun r hr => ?_, fun a ha => ?_, frame_writeBytes s _ _⟩
  · have hk : r.val < (s.regsUpTo x).length := hlen ▸ Nat.lt_succ_of_le hr
    rw [readByte_effectiveAddress_writeBytes hs (hlen ▸ hin) hk, getElem_regsUpTo]
  · exact State.readByte_writeBytes_outside (hlen ▸ ha)

/-- Settles O43. -/
theorem registersLoaded : Obligations.RegistersLoaded := fun x s hin =>
  ⟨_, exec_loadRegs_of_inRange hin, reg_setRegs_loadInto s x, fun p => (frame_setRegs s _).parts p List.not_mem_nil⟩

/-- Settles O45, from O42 and O43: the load reads each register's byte where the store put it. -/
theorem loadUndoesStore : Obligations.LoadUndoesStore := by
  intro x s t r hin hs hstore hi hmem
  obtain ⟨t', hstore', hstored, -, -⟩ := registersStored x s hin hs
  obtain rfl : t' = t := Host.Outcome.next.inj (hstore'.symm.trans hstore)
  obtain ⟨u, hload, hloaded, -⟩ := registersLoaded x r (hi ▸ hin)
  refine ⟨u, hload, fun q hq => ?_⟩
  calc u.reg q
    _ = r.readByte (r.effectiveAddress q.val) := by rw [hloaded, if_pos hq]
    _ = t'.readByte (s.effectiveAddress q.val) := by rw [hmem, State.effectiveAddress, State.effectiveAddress, hi]
    _ = s.reg q := hstored q hq

/-- Settles O39. -/
theorem indexLoads : Obligations.IndexLoads :=
  ⟨fun nnn s => ⟨_, rfl, rfl, frame_setI s nnn⟩,
    fun x s => ⟨_, rfl, toNat_zext16_mul_five (s.reg x), frame_setI s _⟩⟩

/-- Settles O40: the sum is taken at I's 16 bits, to which Vx is extended with its value kept. -/
theorem addToIndexWraps : Obligations.AddToIndexWraps :=
  fun x s => ⟨_, rfl, toNat_add_zext16 s.i (s.reg x), frame_setI s _⟩
end

section
/-! PROOFS. The display: clearing it (O46), drawing a sprite (O47), and drawing the same sprite again (O48). -/

namespace Sys2Proof.Machine

section
variable {s : State} {x y : RegNum} {n : Nat}

/-! ### One drawing -/

/-- The display and the hit bit that Dxyn leaves. -/
def State.drawSprite (s : State) (x y : RegNum) (n : Nat) : Framebuffer × Bool :=
  drawRows (s.reg x).toNat (s.reg y).toNat 0 (s.readBytes (s.effectiveAddress 0) n) (s.fb, false)

theorem exec_drw_of_inRange (h : n = 0 ∨ s.i.toNat + n ≤ 4096) :
    exec (.drw x y n) s =
      .next ((s.setFb (s.drawSprite x y n).1).setFlag (flagByte (s.drawSprite x y n).2)) := by
  have hcheck : outOfRange (s.effectiveAddress 0) n = none := outOfRange_eq_none.mpr h
  simp only [exec, execDrw, hcheck, State.drawSprite]

/-- A sprite has fewer rows than the display, so no two of its rows coincide by the wrap. -/
theorem drew_drawSprite (hn : n < 16) : Drew (SpriteCovers s x y n) (s.fb, false) (s.drawSprite x y n) := by
  have hrows : (s.readBytes (s.effectiveAddress 0) n).length ≤ 32 := by
    rw [length_readBytes]
    omega
  refine (drew_drawRows _ _ 0 _ _ hrows).congr fun p q => ?_
  simp only [BitCovers, SpriteCovers, spriteBit, length_readBytes, getElem_readBytes, State.effectiveAddress,
    Nat.add_zero, Nat.zero_add, exists_prop]

theorem flagByte_eq_zero_or_one (c : Bool) : flagByte c = 0 ∨ flagByte c = 1 := by
  cases c
  · exact .inl rfl
  · exact .inr rfl

theorem flagByte_eq_one_iff {c : Bool} : flagByte c = 1 ↔ c = true := by
  cases c <;> decide

/-! ### The same sprite again -/

/-- Where a sprite falls depends on I, memory and the origin's coordinates alone. -/
theorem spriteCovers_congr {r : State} {x' y' : RegNum} (hi : r.i = s.i) (hmem : ∀ a, r.readByte a = s.readByte a)
    (hx : r.reg x' = s.reg x) (hy : r.reg y' = s.reg y) (p : Fin 64) (q : Fin 32) :
    SpriteCovers r x' y' n p q ↔ SpriteCovers s x y n p q := by
  simp only [SpriteCovers, hi, hmem, hx, hy]

/-- A pixel that two drawings toggle alike is as it was. -/
theorem eq_of_toggled_twice {a b c : Bool} {P : Prop} (h1 : b ≠ a ↔ P) (h2 : c ≠ b ↔ P) : c = a := by
  have h : c ≠ b ↔ b ≠ a := h2.trans h1.symm
  revert h
  cases a <;> cases b <;> cases c <;> decide

end

end Sys2Proof.Machine

open Sys2Proof Sys2Proof.Machine

/-- Settles O47: the rows drawn toggle the pixels the sprite covers, and VF is their hit bit. -/
theorem drawTogglesSpritePixels : Obligations.DrawTogglesSpritePixels := by
  intro x y n s hn hin
  have hdrew : Drew (SpriteCovers s x y n) (s.fb, false) (s.drawSprite x y n) := drew_drawSprite hn
  refine ⟨_, exec_drw_of_inRange hin, hdrew.toggles, ?_, ?_, ((frame_setFb s _).trans (frame_setFlag _ _)).weaken⟩
  · rw [State.reg_setFlag_vf]
    exact flagByte_eq_zero_or_one _
  · rw [State.reg_setFlag_vf, flagByte_eq_one_iff, hdrew.hits]
    exact or_iff_right Bool.false_ne_true

/-- Settles O48, from O47 for each drawing: both toggle the same pixels, so a covered pixel is on between them exactly
when it was off before. -/
theorem drawTwiceRestoresDisplay : Obligations.DrawTwiceRestoresDisplay := by
  intro x y x' y' n s t r hn hin hfirst hpixels hi hmem hx hy
  obtain ⟨t', hfirst', htoggled, -, -, -⟩ := drawTogglesSpritePixels x y n s hn hin
  obtain rfl : t' = t := Host.Outcome.next.inj (hfirst'.symm.trans hfirst)
  obtain ⟨u, hsecond, htoggled', hflag, hhit, -⟩ := drawTogglesSpritePixels x' y' n r hn (hi ▸ hin)
  simp only [spriteCovers_congr hi hmem hx hy, hpixels] at htoggled' hhit
  refine ⟨u, hsecond, fun p q => eq_of_toggled_twice (htoggled p q) (htoggled' p q), hflag, ?_⟩
  have hbetween (p : Fin 64) (q : Fin 32) (hc : SpriteCovers s x y n p q) :
      t'.pixel p q = true ↔ s.pixel p q = false := by
    rw [Bool.eq_not.mpr ((htoggled p q).mpr hc), Bool.not_eq_true']
  exact hhit.trans (exists_congr fun p => exists_congr fun q => and_congr_right (hbetween p q))

/-- Settles O46: the cleared display is the one with every pixel off. -/
theorem clearTurnsPixelsOff : Obligations.ClearTurnsPixelsOff :=
  fun s => ⟨_, rfl, Framebuffer.pixel_allOff, frame_setFb s _⟩
end

section
/-! PROOFS. Keys and timers: the skips on a key's level (O49), the timer transfers (O50), and the wait for a key (O51). -/

namespace Sys2Proof.Machine

section
variable {s : State} {x : RegNum} {k : KeyCode}

/-! ### The key a register names -/

theorem State.keyOperand_of_toNat_eq (h : (s.reg x).toNat = k.val) : s.keyOperand x = some k := by
  have hcode : (s.reg x).toNat < 16 := h ▸ k.isLt
  rw [State.keyOperand, dif_pos hcode, Option.some_inj]
  exact Fin.ext h

theorem State.keyOperand_of_above (h : 15 < (s.reg x).toNat) : s.keyOperand x = none :=
  dif_neg (Nat.not_lt.mpr h)

/-! ### The two skips -/

theorem exec_skp_of_key (h : s.keyOperand x = some k) : exec (.skp x) s = .next (skipIf (s.isPressed k) s) := by
  simp only [exec, execSkp, h]

theorem exec_sknp_of_key (h : s.keyOperand x = some k) : exec (.sknp x) s = .next (skipIf (!s.isPressed k) s) := by
  simp only [exec, execSknp, h]

theorem exec_skp_of_noKey (h : s.keyOperand x = none) :
    exec (.skp x) s = .next (raiseIn (.skp x) .keyOutOfRange none s) := by
  simp only [exec, execSkp, h]

theorem exec_sknp_of_noKey (h : s.keyOperand x = none) :
    exec (.sknp x) s = .next (raiseIn (.sknp x) .keyOutOfRange none s) := by
  simp only [exec, execSknp, h]

theorem skipIf_not_spec (c : Bool) (s : State) :
    (skipIf (!c) s).pc.toNat = (if c then s.pc.toNat else (s.pc.toNat + 2) % 65536) ∧
      Frame [] [.pc] s (skipIf (!c) s) := by
  cases c with
  | false => exact skipIf_spec true s
  | true => exact skipIf_spec false s

end

end Sys2Proof.Machine

open Sys2Proof Sys2Proof.Machine

/-- Settles O49: a register up to 15 names the key whose level decides the skip, and one above 15 names none. -/
theorem keySkips : Obligations.KeySkips := by
  constructor
  · intro x k s hcode
    have hkey : s.keyOperand x = some k := State.keyOperand_of_toNat_eq hcode
    exact ⟨⟨_, exec_skp_of_key hkey, skipIf_spec _ s⟩, ⟨_, exec_sknp_of_key hkey, skipIf_not_spec _ s⟩⟩
  · intro x s hcode
    have hkey : s.keyOperand x = none := State.keyOperand_of_above hcode
    exact ⟨⟨_, exec_skp_of_noKey hkey, raiseIn_haltsWith _ _ _ s⟩,
      ⟨_, exec_sknp_of_noKey hkey, raiseIn_haltsWith _ _ _ s⟩⟩

/-- Settles O50: each form is one write, to a register or to a timer. -/
theorem timerTransfers : Obligations.TimerTransfers :=
  fun x s => ⟨⟨_, rfl, State.reg_setReg_same s x s.dt, frame_setReg s x s.dt⟩, ⟨_, rfl, rfl, frame_setDt s _⟩,
    ⟨_, rfl, rfl, frame_setSt s _⟩⟩

/-- Settles O51: the wait is set and then the callback armed. -/
theorem waitForKeyBegins : Obligations.WaitForKeyBegins :=
  fun x s => ⟨_, rfl, rfl, rfl, (frame_setWait s (some x)).trans (frame_setCallback _ true)⟩
end

section
/-! PROOFS. Faults and halting (O55 to O57), and the end of a batch (O9, O10). -/

namespace Sys2Proof.Machine

/-! ### The faults of an instruction -/

/-- The kind of fault an instruction can raise, if it can raise any (R242). -/
def faultKind : Instr → Option FaultKind
  | .ret => some .stackUnderflow
  | .call _ => some .stackOverflow
  | .drw _ _ _ | .ldB _ | .storeRegs _ | .loadRegs _ => some .addressOutOfRange
  | .skp _ | .sknp _ => some .keyOutOfRange
  | _ => none

theorem faultKind_isSome_iff {i : Instr} : (faultKind i).isSome ↔
    (∃ nnn, i = .call nnn) ∨ i = .ret ∨ (∃ x y n, i = .drw x y n) ∨ (∃ x, i = .ldB x) ∨ (∃ x, i = .storeRegs x) ∨
      (∃ x, i = .loadRegs x) ∨ (∃ x, i = .skp x) ∨ (∃ x, i = .sknp x) := by
  cases i <;> simp [faultKind]

section
variable {s t : State} {i : Instr}

@[simp] theorem skipIf_halt (c : Bool) (s : State) : (skipIf c s).halt = s.halt := by cases c <;> rfl

/-- All that an instruction can do to Halt: leave it alone, or raise a fault of its kind, whose record has an address
exactly when the kind is AddressOutOfRange. -/
theorem exec_halt_cases (h : exec i s = .next t) : t.halt = s.halt ∨
    ∃ kind addr, faultKind i = some kind ∧ (addr ≠ none ↔ kind = .addressOutOfRange) ∧ t = raiseIn i kind addr s := by
  cases i with
  | ret =>
    obtain ⟨-, rfl⟩ | ⟨_, _, -, rfl⟩ := execRet_cases h
    · exact .inr ⟨_, _, rfl, by decide, rfl⟩
    · exact .inl rfl
  | call nnn =>
    obtain ⟨-, rfl⟩ | ⟨-, rfl⟩ := execCall_cases h
    · exact .inr ⟨_, _, rfl, by decide, rfl⟩
    · exact .inl rfl
  | drw x y n =>
    obtain ⟨_, -, rfl⟩ | ⟨-, _, _, rfl⟩ := execDrw_cases h
    · exact .inr ⟨_, _, rfl, by simp, rfl⟩
    · exact .inl rfl
  | ldB x =>
    obtain ⟨_, -, rfl⟩ | ⟨-, rfl⟩ := execLdB_cases h
    · exact .inr ⟨_, _, rfl, by simp, rfl⟩
    · exact .inl rfl
  | storeRegs x =>
    obtain ⟨_, -, rfl⟩ | ⟨-, rfl⟩ := execStoreRegs_cases h
    · exact .inr ⟨_, _, rfl, by simp, rfl⟩
    · exact .inl rfl
  | loadRegs x =>
    obtain ⟨_, -, rfl⟩ | ⟨-, rfl⟩ := execLoadRegs_cases h
    · exact .inr ⟨_, _, rfl, by simp, rfl⟩
    · exact .inl rfl
  | skp x =>
    obtain ⟨-, rfl⟩ | ⟨_, -, rfl⟩ := execSkp_cases h
    · exact .inr ⟨_, _, rfl, by decide, rfl⟩
    · exact .inl (skipIf_halt _ s)
  | sknp x =>
    obtain ⟨-, rfl⟩ | ⟨_, -, rfl⟩ := execSknp_cases h
    · exact .inr ⟨_, _, rfl, by decide, rfl⟩
    · exact .inl (skipIf_halt _ s)
  | seImm | sneImm | seReg | sneReg => cases h; exact .inl (skipIf_halt _ s)
  | _ => cases h; exact .inl rfl

/-! ### The steps of a halted core -/

theorem loadProgram_of_halted (bytes : List Byte) (hhalt : s.halt ≠ none) :
    loadProgram bytes s = s.setReply (some .halted) :=
  if_pos (Option.isSome_iff_ne_none.mpr hhalt)

/-- A transaction in a halted core moves key levels and the answer to the host at most: loads and batches are turned
away, and a key press ends no wait. -/
theorem frame_perform_of_halted (a : Transaction) (hhalt : s.halt ≠ none) :
    Frame [] [.keys, .reply, .toneCall] s (perform a s) := by
  cases a with
  | loadProgram bytes =>
    have hrefused : perform (.loadProgram bytes) s = _ := loadProgram_of_halted bytes hhalt
    exact hrefused ▸ (frame_setReply s _).weaken
  | runCycleBatch n =>
    have hrefused : perform (.runCycleBatch n) s = _ := beginBatch_of_refused (batchRefusal_of_halted hhalt)
    exact hrefused ▸ ((frame_setToneCall s none).trans (frame_setReply _ _)).weaken
  | keyPress k =>
    have hlevel : perform (.keyPress k) s = _ := keyPress_otherwise (.inr hhalt)
    exact hlevel ▸ (frame_setKey s k true).weaken
  | keyRelease k => exact (frame_setKey s k false).weaken
  | introspect => exact (frame_setReply s _).weaken

theorem step_frame_of_halted (hhalt : s.halt ≠ none) (h : step s = .next t) :
    Frame [] [.keys, .inbox, .batch, .reply, .toneCall] s t := by
  have hgate : batchRefusal s ≠ none := by simp [batchRefusal_of_halted hhalt]
  obtain ⟨_, _, -, -, rfl⟩ | ⟨-, hruns, -⟩ | ⟨_, -, hruns, -⟩ | ⟨-, -, rfl⟩ | ⟨a, rest, -, -, rfl⟩ := step_cases h
  · exact ((frame_setBatch s none).trans (frame_setReply _ _)).weaken
  · exact absurd hruns hgate
  · exact absurd hruns hgate
  · exact (Frame.refl _).weaken
  · exact ((frame_setInbox s rest).trans (frame_perform_of_halted a hhalt)).weaken

/-! ### The end of a batch -/

theorem endOfBatch_timers_of_ticking (h : s.cfg.tickWhilePaused = true ∨ s.wait = none) :
    (endOfBatch s).dt = ticked s.dt ∧ (endOfBatch s).st = ticked s.st := by
  have hticks : (s.cfg.tickWhilePaused || s.wait.isNone) = true := by simpa using h
  simp [endOfBatch, hticks]

theorem endOfBatch_timers_of_frozen (htick : s.cfg.tickWhilePaused = false) (hwait : s.wait ≠ none) :
    (endOfBatch s).dt = s.dt ∧ (endOfBatch s).st = s.st := by
  have hfrozen : (s.cfg.tickWhilePaused || s.wait.isNone) = false := by
    simpa [htick, Option.isSome_iff_ne_none] using hwait
  simp [endOfBatch, hfrozen]

/-- Both timers go down by one, floored at 0 (R251). -/
theorem endOfBatch_timers_toNat (h : s.cfg.tickWhilePaused = true ∨ s.wait = none) :
    (endOfBatch s).dt.toNat = s.dt.toNat - 1 ∧ (endOfBatch s).st.toNat = s.st.toNat - 1 := by
  obtain ⟨hdt, hst⟩ := endOfBatch_timers_of_ticking h
  exact ⟨hdt ▸ ticked_toNat s.dt, hst ▸ ticked_toNat s.st⟩

theorem endOfBatch_toneOn (s : State) : (endOfBatch s).toneOn = decide (0 < (endOfBatch s).st.toNat) := by
  simp [endOfBatch]

theorem endOfBatch_toneCall (s : State) :
    (endOfBatch s).toneCall = some (if 0 < (endOfBatch s).st.toNat then .play 440 else .stop) := by
  simp [endOfBatch, toneHz]

/-- The tone is gated by ST as the batch leaves it, ticked or not (R253). -/
theorem endOfBatch_gates_tone (s : State) :
    (0 < (endOfBatch s).st.toNat → (endOfBatch s).toneOn = true ∧ (endOfBatch s).toneCall = some (.play 440)) ∧
      ((endOfBatch s).st.toNat = 0 → (endOfBatch s).toneOn = false ∧ (endOfBatch s).toneCall = some .stop) := by
  rw [endOfBatch_toneOn, endOfBatch_toneCall]
  exact ⟨fun hst => by simp [hst], fun hst => by simp [hst]⟩

end

end Sys2Proof.Machine

open Sys2Proof Sys2Proof.Machine

/-- Settles O56: an instruction that sets Halt raised a fault of its kind. -/
theorem faultsArePrecise : Obligations.FaultsArePrecise := by
  intro i s t r h hrunning hhalted
  obtain hsame | ⟨kind, addr, -, haddr, rfl⟩ := exec_halt_cases h
  · simp [hsame, hrunning] at hhalted
  · have hfault : HaltsWith (faultOf i kind addr s) s (raiseIn i kind addr s) := raiseIn_haltsWith i kind addr s
    obtain rfl : faultOf i kind addr s = r := Option.some_inj.mp (hfault.halt.symm.trans hhalted)
    exact ⟨hfault, BitVec.sub_add_cancel s.pc 2, rfl, haddr⟩

/-- Settles O57: an instruction that is none of the eight has no kind of fault to raise. -/
theorem onlyEightInstructionsCanFault : Obligations.OnlyEightInstructionsCanFault := by
  intro i s hcall hret hdrw hldB hstore hload hskp hsknp
  have hnone : ¬(faultKind i).isSome := by
    rw [faultKind_isSome_iff]
    simp [hcall, hret, hdrw, hldB, hstore, hload, hskp, hsknp]
  obtain ⟨t, ht⟩ := exec_answers_next i s
  obtain hsame | ⟨kind, _, hkind, -⟩ := exec_halt_cases ht
  · exact ⟨t, ht, hsame⟩
  · exact absurd (Option.isSome_of_eq_some hkind) hnone

/-- Settles O55: Halt lies in the frame of every step of a halted core. -/
theorem haltIsPermanent : Obligations.HaltIsPermanent := fun _ _ hhalt h =>
  have hframe := step_frame_of_halted hhalt h
  ⟨hframe.parts .halt (by decide), hframe⟩

/-- Settles O9: the timers tick whether the core waits or not, and the tone follows ST. -/
theorem batchEndTicksAndGates : Obligations.BatchEndTicksAndGates := by
  intro s hbatch hready hhalt htick
  obtain ⟨hdt, hst⟩ := endOfBatch_timers_toNat (s := s) (.inl htick)
  obtain ⟨hplay, hstop⟩ := endOfBatch_gates_tone s
  exact ⟨_, step_of_batch_end hbatch hready hhalt, rfl, rfl, hdt, hst, hplay, hstop, frame_endOfBatch s⟩

/-- Settles O10: the wait decides whether the timers tick, and the tone follows ST in either case. -/
theorem pausedBatchEndWithoutTicking : Obligations.PausedBatchEndWithoutTicking := by
  intro s hbatch hready hhalt htick
  obtain ⟨hplay, hstop⟩ := endOfBatch_gates_tone s
  exact ⟨_, step_of_batch_end hbatch hready hhalt, rfl, rfl, endOfBatch_timers_of_frozen htick,
    fun hwait => endOfBatch_timers_toNat (.inr hwait), hplay, hstop, frame_endOfBatch s⟩
end

section
/-! PROOFS. Loading a program: the load that is accepted (O16, O17), those that are refused (O18), and the first
instruction that runs after a load (O23). -/

namespace Sys2Proof.Machine

section
variable {s : State} {bytes : List Byte}

/-! ### What installing a program does -/

theorem frame_install (bytes : List Byte) (s : State) : Frame [] [.memory, .ready] s (install bytes s) :=
  (((frame_writeBytes s _ bytes).trans (frame_writeBytes _ 0 _)).trans (frame_setReady _ true)).weaken

/-- The font is written last and lies below address 80 (R284). -/
theorem readByte_install_above_font {a : Nat} (ha : 80 ≤ a) :
    (install bytes s).readByte a = (s.writeBytes 0x200 bytes).readByte a :=
  State.readByte_writeBytes_outside (s := s.writeBytes 0x200 bytes) (.inr (by simpa using ha))

theorem readByte_install_program (hs : s.MemoryCanonical) (hlen : bytes.length ≤ 3584) {k : Nat}
    (hk : k < bytes.length) : (install bytes s).readByte (0x200 + k) = bytes[k] :=
  (readByte_install_above_font (by omega)).trans (State.readByte_writeBytes_inside hs (by omega) hk)

theorem readByte_install_font (hs : s.MemoryCanonical) (hlen : bytes.length ≤ 3584) {j : Nat} (hj : j < 80) :
    (install bytes s).readByte j = s.cfg.font[j] := by
  have hprogram : (s.writeBytes 0x200 bytes).MemoryCanonical := State.wf_writeBytes hs (.inr (by omega))
  calc (install bytes s).readByte j
      = ((s.writeBytes 0x200 bytes).writeBytes 0 s.cfg.font.toList).readByte (0 + j) := by rw [Nat.zero_add]; rfl
    _ = s.cfg.font.toList[j]'(by simpa using hj) :=
        State.readByte_writeBytes_inside hprogram (by simp) (by simpa using hj)
    _ = s.cfg.font[j] := Vector.getElem_toList _

theorem readByte_install_other {a : Nat} (hfont : 80 ≤ a) (hprogram : a < 0x200 ∨ 0x200 + bytes.length ≤ a) :
    (install bytes s).readByte a = s.readByte a :=
  (readByte_install_above_font hfont).trans (State.readByte_writeBytes_outside hprogram)

/-! ### The two answers to a load -/

theorem loadProgram_of_accepted (hhalt : s.halt = none) (hlen : bytes.length ≤ 3584) :
    loadProgram bytes s = (install bytes s).setReply (some .loaded) := by
  obtain ⟨hhalted, -⟩ | ⟨-, hlong, -⟩ | ⟨-, -, heq⟩ := loadProgram_cases bytes s
  · exact absurd hhalt hhalted
  · exact absurd hlen (Nat.not_le.mpr hlong)
  · exact heq

/-- A refused load only answers; a halted core says so whatever the program's length (R282, R287). -/
theorem loadProgram_of_refused (h : s.halt ≠ none ∨ 3584 < bytes.length) :
    loadProgram bytes s = s.setReply (some (if s.halt = none then .oversizedProgram else .halted)) := by
  obtain ⟨hhalted, heq⟩ | ⟨hhalt, -, heq⟩ | ⟨hhalt, hlen, -⟩ := loadProgram_cases bytes s
  · rw [heq, if_neg hhalted]
  · rw [heq, if_pos hhalt]
  · exact (h.elim (absurd hhalt) (Nat.not_lt.mpr hlen)).elim

/-- The step of a core that accepts a load takes it from the pending ones, installs the program, and answers. -/
theorem step_of_accepted_load (h : Pending (.loadProgram bytes) s) (hhalt : s.halt = none)
    (hlen : bytes.length ≤ 3584) :
    step s = .next ((install bytes (s.setInbox s.inbox.tail)).setReply (some .loaded)) :=
  (step_of_pending h).trans (congrArg _ (loadProgram_of_accepted (s := s.setInbox s.inbox.tail) hhalt hlen))

/-! ### From a load to the first fetch -/

/-- The step of a loaded core that begins a batch takes the call from the pending ones and makes no tone call yet. -/
theorem step_of_begun_batch {n : Nat} (h : Pending (.runCycleBatch n) s) (hhalt : s.halt = none)
    (hready : s.ready = true) :
    step s = .next (((s.setInbox s.inbox.tail).setToneCall none).setBatch (some n)) :=
  (step_of_pending h).trans (congrArg _ (beginBatch_of_begins (s := s.setInbox s.inbox.tail) hhalt hready))

/-- The core `s` once it has accepted a load and begun a batch of n iterations. -/
def beganLoaded (bytes : List Byte) (n : Nat) (s : State) : State :=
  ((install bytes s).setReply (some .loaded)).setBatch (some n)

theorem frame_beganLoaded (bytes : List Byte) (n : Nat) (s : State) :
    Frame [] [.memory, .ready, .batch, .reply] s (beganLoaded bytes n s) :=
  (((frame_install bytes s).trans (frame_setReply _ _)).trans (frame_setBatch _ _)).weaken

theorem beganLoaded_cycling (bytes : List Byte) (n : Nat) (hhalt : s.halt = none) (hwait : s.wait = none) :
    Cycling (beganLoaded bytes (n + 1) s) n :=
  ⟨rfl, rfl, hhalt, hwait⟩

/-- From construction, with a load and a batch pending, two steps lead to the core that has begun the batch. -/
theorem steps_of_load_then_batch (cfg : Config) (fb0 : Framebuffer) (n : Nat) (hlen : bytes.length ≤ 3584) :
    ∃ s1, step ((State.construct cfg fb0).setInbox [.loadProgram bytes, .runCycleBatch n]) = .next s1 ∧
      step s1 = .next (beganLoaded bytes n (State.construct cfg fb0)) :=
  ⟨_, step_of_accepted_load ⟨rfl, rfl⟩ rfl hlen, step_of_begun_batch ⟨rfl, rfl⟩ rfl rfl⟩

/-- The program's first two bytes are the word the core fetches (R56, R288). -/
theorem fetchWord_beganLoaded {b0 b1 : Byte} {rest : List Byte} (n : Nat) (hs : s.MemoryCanonical)
    (hpc : s.pc = 0x200) (hlen : (b0 :: b1 :: rest).length ≤ 3584) :
    fetchWord (beganLoaded (b0 :: b1 :: rest) n s) = joinBytes b0 b1 := by
  have hread (k : Nat) (hk : k < (b0 :: b1 :: rest).length) :
      (beganLoaded (b0 :: b1 :: rest) n s).readByte (0x200 + k) = (b0 :: b1 :: rest)[k] :=
    readByte_install_program hs hlen hk
  have haddr : (beganLoaded (b0 :: b1 :: rest) n s).pc.toNat = 0x200 := congrArg BitVec.toNat hpc
  rw [fetchWord, haddr]
  exact congrArg₂ joinBytes (hread 0 (by simp)) (hread 1 (by simp))

end

end Sys2Proof.Machine

open Sys2Proof Sys2Proof.Machine

/-- Settles O16: program and font lie apart, so neither write touches what the other put. -/
theorem loadCopiesProgramAndFont : Obligations.LoadCopiesProgramAndFont := by
  intro s bytes h hhalt hlen hs
  have hs' : (s.setInbox s.inbox.tail).MemoryCanonical := hs
  exact ⟨_, step_of_accepted_load h hhalt hlen, fun _ hk => readByte_install_program hs' hlen hk,
    fun _ hj => readByte_install_font hs' hlen hj,
    fun _ hfont hprogram => readByte_install_other (s := s.setInbox s.inbox.tail) hfont hprogram⟩

/-- Settles O17. -/
theorem loadKeepsTheRest : Obligations.LoadKeepsTheRest :=
  fun s bytes h hhalt hlen =>
    ⟨_, step_of_accepted_load h hhalt hlen, rfl, rfl, rfl,
      (((frame_setInbox s _).trans (frame_install bytes _)).trans (frame_setReply _ _)).weaken⟩

/-- Settles O18: a refused load is taken from the pending ones and answered, and no more. -/
theorem refusedLoadsChangeNothing : Obligations.RefusedLoadsChangeNothing := by
  intro s bytes h hrefused
  have hanswer : perform (.loadProgram bytes) (s.setInbox s.inbox.tail) = _ := loadProgram_of_refused hrefused
  rw [step_of_pending h, hanswer]
  exact ⟨_, rfl, rfl, rfl, ((frame_setInbox s _).trans (frame_setReply _ _)).weaken⟩

/-- Settles O23: two steps accept the load and begin the batch, and the third is the cycle of the word fetched at
0x200. -/
theorem firstInstructionAfterLoad : Obligations.FirstInstructionAfterLoad := by
  intro cfg fb0 b0 b1 rest n i hrest hdecode
  have hlen : (b0 :: b1 :: rest).length ≤ 3584 := Nat.add_le_add_right hrest 2
  have hcycling : Cycling (beganLoaded (b0 :: b1 :: rest) (n + 1) (State.construct cfg fb0)) n :=
    beganLoaded_cycling _ n rfl rfl
  have hfetch := fetchWord_beganLoaded (n + 1) (construct_memoryCanonical cfg fb0) rfl hlen
  obtain ⟨s1, hload, hbegin⟩ := steps_of_load_then_batch cfg fb0 (n + 1) hlen
  have hfirst := step_of_decoded hcycling (by decide : (0x200 : Word).toNat + 1 < 4096)
    ((congrArg _ hfetch).trans (decode_two_eq_ok.mp hdecode))
  exact ⟨s1, _, _, hload, hbegin, rfl, hcycling, rfl, frame_beganLoaded _ _ _, hfirst, rfl, rfl,
    ((frame_setBatch _ _).trans (frame_setPc _ _)).weaken⟩
end
